-- ==== Sys2Proof/Word.lean ====
section
/-! DEFINITION. The bit widths that the spec gives a name to (00_scope.md R7, R8): register words, pixel bytes,
register offsets, CUBE keys and Host Transaction Words. -/

namespace Sys2Proof

/-- One byte of pixel memory or one CLUT entry (R44, R66). -/
abbrev Byte := BitVec 8

/-- A 32-bit register word, and a 32-bit pixel-memory byte address (R7: REG_W, ADDR_W). -/
abbrev Word := BitVec 32

/-- A byte offset in the 4 KiB register window (R60, R85). -/
abbrev Offset := BitVec 12

/-- A 24-bit CUBE key, and a 24-bit CUBE entry (R44, R195). -/
abbrev Key := BitVec 24

/-- A Host Transaction Word (R85). -/
abbrev Htw := BitVec 48

end Sys2Proof
end

