-- ==== Sys2Proof/Syntax.lean ====
section
/-! DEFINITION. The instructions of PXMUX: host register transactions and commands, one constructor per row of
spec/opcode_table.json (30_encoding.md R93, R94). A read has no WDATA operand, since "two read HTWs that differ only
in WDATA are the same transaction" (R87). Every other operand bit of an HTW is kept. -/

namespace Sys2Proof

/-- One row of the opcode table, with its operands. -/
inductive Instr where
  /-- An HTW with RSV bit 46 set (R88): the other fields of the word are its operands. -/
  | rsvRefusedB46 (we : Bool) (rsvLow : BitVec 2) (off : Offset) (wdata : Word)
  /-- An HTW with RSV bit 46 clear and bit 45 set (R88). -/
  | rsvRefusedB45 (we : Bool) (rsvLow : BitVec 1) (off : Offset) (wdata : Word)
  /-- An HTW with RSV = 0b001 (R88). -/
  | rsvRefusedB44 (we : Bool) (off : Offset) (wdata : Word)
  | rdId
  | rdCmd
  | rdStatus
  | rdErr
  | rdIntStatus
  | rdIntEnable
  | rdCfg
  | rdWidth
  | rdHeight
  | rdSrcBase
  | rdSrcStride
  | rdDstBase
  | rdDstStride
  | rdClutIndex
  | rdClutData
  | rdCubeIndex
  | rdCubeData
  | rdLayout
  | wrId (wdata : Word)
  | wrStatus (wdata : Word)
  | wrErr (wdata : Word)
  | wrIntStatus (wdata : Word)
  | wrIntEnable (wdata : Word)
  | wrCfg (wdata : Word)
  | wrWidth (wdata : Word)
  | wrHeight (wdata : Word)
  | wrSrcBase (wdata : Word)
  | wrSrcStride (wdata : Word)
  | wrDstBase (wdata : Word)
  | wrDstStride (wdata : Word)
  | wrClutIndex (wdata : Word)
  | wrClutData (wdata : Word)
  | wrCubeIndex (wdata : Word)
  | wrCubeData (wdata : Word)
  | wrLayout (wdata : Word)
  | cmdNop
  | cmdStart
  | cmdClearErr
  | cmdCubeInvalidate
  | cmdCubeCommit
  /-- A CMD write whose word is none of the five commands (R91, R146). -/
  | cmdReserved (wdata : Word)
  /-- A read of an offset that no register has (R127). -/
  | rdUnmapped (off : Offset)
  /-- A write to an offset that no register has (R128). -/
  | wrUnmapped (off : Offset) (wdata : Word)
  deriving DecidableEq, Repr

/-- The eighteen registers and windows of the register map (10_state.md R22). -/
inductive Reg where
  | id | cmd | status | err | intStatus | intEnable | cfg | width | height
  | srcBase | srcStride | dstBase | dstStride
  | clutIndex | clutData | cubeIndex | cubeData | layout
  deriving DecidableEq, Repr

/-- A register operand of a host script line (30_encoding.md R96): a register's name, or a raw offset `@0xNNN`. -/
inductive RegRef where
  | named (r : Reg)
  | raw (off : Offset)
  deriving DecidableEq, Repr

/-- One line of a host script (R96): `RD <reg>` or `WR <reg>, <value32>`. -/
inductive ScriptLine where
  | rd (r : RegRef)
  | wr (r : RegRef) (value : Word)
  deriving DecidableEq, Repr

end Sys2Proof
end

