-- ==== Sys2Proof/Decode.lean ====
section
/-! DEFINITION. The decoder of Host Transaction Words (30_encoding.md R85 to R95), total on all 48-bit words; the
encoder after it; and the opcode table itself, read as R93 says (first row with `(HTW & mask) == match`). -/

namespace Sys2Proof

/-! ### The fields of an HTW (R85) -/

/-- WE, bit 47: 1 = write, 0 = read. -/
def htwWe (w : Htw) : Bool := w.getLsbD 47

/-- RSV, bits 46 to 44. -/
def htwRsv (w : Htw) : BitVec 3 := w.extractLsb' 44 3

/-- OFFSET, bits 43 to 32. -/
def htwOffset (w : Htw) : Offset := w.extractLsb' 32 12

/-- WDATA, bits 31 to 0. -/
def htwWdata (w : Htw) : Word := w.extractLsb' 0 32

/-- The HTW with the given fields (R85, R96). -/
def packHtw (we : Bool) (rsv : BitVec 3) (off : Offset) (wdata : Word) : Htw :=
  BitVec.ofBool we ++ rsv ++ off ++ wdata

/-- The offset of each register (R22, R94). -/
def regOffset : Reg → Offset
  | .id => 0x000#12
  | .cmd => 0x004#12
  | .status => 0x008#12
  | .err => 0x00C#12
  | .intStatus => 0x010#12
  | .intEnable => 0x014#12
  | .cfg => 0x018#12
  | .width => 0x01C#12
  | .height => 0x020#12
  | .srcBase => 0x024#12
  | .srcStride => 0x028#12
  | .dstBase => 0x02C#12
  | .dstStride => 0x030#12
  | .clutIndex => 0x034#12
  | .clutData => 0x038#12
  | .cubeIndex => 0x03C#12
  | .cubeData => 0x040#12
  | .layout => 0x044#12

/-! ### Decoding -/

/-- The read column of R94, with the unmapped catch-all (R86, R127). -/
def decodeRead (off : Offset) : Instr :=
  if off = 0x000#12 then .rdId
  else if off = 0x004#12 then .rdCmd
  else if off = 0x008#12 then .rdStatus
  else if off = 0x00C#12 then .rdErr
  else if off = 0x010#12 then .rdIntStatus
  else if off = 0x014#12 then .rdIntEnable
  else if off = 0x018#12 then .rdCfg
  else if off = 0x01C#12 then .rdWidth
  else if off = 0x020#12 then .rdHeight
  else if off = 0x024#12 then .rdSrcBase
  else if off = 0x028#12 then .rdSrcStride
  else if off = 0x02C#12 then .rdDstBase
  else if off = 0x030#12 then .rdDstStride
  else if off = 0x034#12 then .rdClutIndex
  else if off = 0x038#12 then .rdClutData
  else if off = 0x03C#12 then .rdCubeIndex
  else if off = 0x040#12 then .rdCubeData
  else if off = 0x044#12 then .rdLayout
  else .rdUnmapped off

/-- The command that a CMD write's WDATA names (R89, R90, R140). -/
def decodeCommand (wdata : Word) : Instr :=
  if wdata = 0#32 then .cmdNop
  else if wdata = 1#32 then .cmdStart
  else if wdata = 2#32 then .cmdClearErr
  else if wdata = 3#32 then .cmdCubeInvalidate
  else if wdata = 4#32 then .cmdCubeCommit
  else .cmdReserved wdata

/-- The write column of R94, with the unmapped catch-all (R86, R128). -/
def decodeWrite (off : Offset) (wdata : Word) : Instr :=
  if off = 0x000#12 then .wrId wdata
  else if off = 0x004#12 then decodeCommand wdata
  else if off = 0x008#12 then .wrStatus wdata
  else if off = 0x00C#12 then .wrErr wdata
  else if off = 0x010#12 then .wrIntStatus wdata
  else if off = 0x014#12 then .wrIntEnable wdata
  else if off = 0x018#12 then .wrCfg wdata
  else if off = 0x01C#12 then .wrWidth wdata
  else if off = 0x020#12 then .wrHeight wdata
  else if off = 0x024#12 then .wrSrcBase wdata
  else if off = 0x028#12 then .wrSrcStride wdata
  else if off = 0x02C#12 then .wrDstBase wdata
  else if off = 0x030#12 then .wrDstStride wdata
  else if off = 0x034#12 then .wrClutIndex wdata
  else if off = 0x038#12 then .wrClutData wdata
  else if off = 0x03C#12 then .wrCubeIndex wdata
  else if off = 0x040#12 then .wrCubeData wdata
  else if off = 0x044#12 then .wrLayout wdata
  else .wrUnmapped off wdata

/-- The instruction of every 48-bit word: the RSV rows before any other (R88), then WE and OFFSET, and for a CMD write
WDATA (R86, R93). -/
def decode (w : Htw) : Instr :=
  if w.getLsbD 46 then .rsvRefusedB46 (htwWe w) (w.extractLsb' 44 2) (htwOffset w) (htwWdata w)
  else if w.getLsbD 45 then .rsvRefusedB45 (htwWe w) (w.extractLsb' 44 1) (htwOffset w) (htwWdata w)
  else if w.getLsbD 44 then .rsvRefusedB44 (htwWe w) (htwOffset w) (htwWdata w)
  else if htwWe w then decodeWrite (htwOffset w) (htwWdata w)
  else decodeRead (htwOffset w)

/-! ### Encoding -/

/-- The word of a read of a register (R96): WDATA is 0. -/
def encodeRead (off : Offset) : Htw := packHtw false 0#3 off 0#32

/-- The word of a write to a register (R96). -/
def encodeWrite (off : Offset) (wdata : Word) : Htw := packHtw true 0#3 off wdata

/-- The word of each instruction (R85, R90, R94, R96). -/
def encode : Instr → Htw
  | .rsvRefusedB46 we rsvLow off wdata => packHtw we (1#1 ++ rsvLow) off wdata
  | .rsvRefusedB45 we rsvLow off wdata => packHtw we (1#2 ++ rsvLow) off wdata
  | .rsvRefusedB44 we off wdata => packHtw we 1#3 off wdata
  | .rdId => encodeRead (regOffset .id)
  | .rdCmd => encodeRead (regOffset .cmd)
  | .rdStatus => encodeRead (regOffset .status)
  | .rdErr => encodeRead (regOffset .err)
  | .rdIntStatus => encodeRead (regOffset .intStatus)
  | .rdIntEnable => encodeRead (regOffset .intEnable)
  | .rdCfg => encodeRead (regOffset .cfg)
  | .rdWidth => encodeRead (regOffset .width)
  | .rdHeight => encodeRead (regOffset .height)
  | .rdSrcBase => encodeRead (regOffset .srcBase)
  | .rdSrcStride => encodeRead (regOffset .srcStride)
  | .rdDstBase => encodeRead (regOffset .dstBase)
  | .rdDstStride => encodeRead (regOffset .dstStride)
  | .rdClutIndex => encodeRead (regOffset .clutIndex)
  | .rdClutData => encodeRead (regOffset .clutData)
  | .rdCubeIndex => encodeRead (regOffset .cubeIndex)
  | .rdCubeData => encodeRead (regOffset .cubeData)
  | .rdLayout => encodeRead (regOffset .layout)
  | .wrId wdata => encodeWrite (regOffset .id) wdata
  | .wrStatus wdata => encodeWrite (regOffset .status) wdata
  | .wrErr wdata => encodeWrite (regOffset .err) wdata
  | .wrIntStatus wdata => encodeWrite (regOffset .intStatus) wdata
  | .wrIntEnable wdata => encodeWrite (regOffset .intEnable) wdata
  | .wrCfg wdata => encodeWrite (regOffset .cfg) wdata
  | .wrWidth wdata => encodeWrite (regOffset .width) wdata
  | .wrHeight wdata => encodeWrite (regOffset .height) wdata
  | .wrSrcBase wdata => encodeWrite (regOffset .srcBase) wdata
  | .wrSrcStride wdata => encodeWrite (regOffset .srcStride) wdata
  | .wrDstBase wdata => encodeWrite (regOffset .dstBase) wdata
  | .wrDstStride wdata => encodeWrite (regOffset .dstStride) wdata
  | .wrClutIndex wdata => encodeWrite (regOffset .clutIndex) wdata
  | .wrClutData wdata => encodeWrite (regOffset .clutData) wdata
  | .wrCubeIndex wdata => encodeWrite (regOffset .cubeIndex) wdata
  | .wrCubeData wdata => encodeWrite (regOffset .cubeData) wdata
  | .wrLayout wdata => encodeWrite (regOffset .layout) wdata
  | .cmdNop => encodeWrite (regOffset .cmd) 0#32
  | .cmdStart => encodeWrite (regOffset .cmd) 1#32
  | .cmdClearErr => encodeWrite (regOffset .cmd) 2#32
  | .cmdCubeInvalidate => encodeWrite (regOffset .cmd) 3#32
  | .cmdCubeCommit => encodeWrite (regOffset .cmd) 4#32
  | .cmdReserved wdata => encodeWrite (regOffset .cmd) wdata
  | .rdUnmapped off => encodeRead off
  | .wrUnmapped off wdata => encodeWrite off wdata

/-! ### The opcode table, read first match first (R93) -/

/-- One row of spec/opcode_table.json: its mask, its match value, and the instruction that a matching word stands
for. -/
structure TableRow where
  mask : Htw
  matchBits : Htw
  build : Htw → Instr

/-- A read row of R94: WE = 0, RSV = 0 and the register's OFFSET are fixed. -/
def readRow (matchBits : Htw) (i : Instr) : TableRow := ⟨0xFFFF00000000#48, matchBits, fun _ => i⟩

/-- A write row of R94: WE = 1, RSV = 0 and the register's OFFSET are fixed, and WDATA is the operand. -/
def writeRow (matchBits : Htw) (i : Word → Instr) : TableRow :=
  ⟨0xFFFF00000000#48, matchBits, fun w => i (htwWdata w)⟩

/-- A command row of R90: every bit is fixed. -/
def commandRow (matchBits : Htw) (i : Instr) : TableRow := ⟨0xFFFFFFFFFFFF#48, matchBits, fun _ => i⟩

/-- The RSV rows, which stand first (R88). -/
def rsvRows : List TableRow :=
  [⟨0x400000000000#48, 0x400000000000#48,
      fun w => .rsvRefusedB46 (htwWe w) (w.extractLsb' 44 2) (htwOffset w) (htwWdata w)⟩,
   ⟨0x200000000000#48, 0x200000000000#48,
      fun w => .rsvRefusedB45 (htwWe w) (w.extractLsb' 44 1) (htwOffset w) (htwWdata w)⟩,
   ⟨0x100000000000#48, 0x100000000000#48,
      fun w => .rsvRefusedB44 (htwWe w) (htwOffset w) (htwWdata w)⟩]

/-- The register read rows, in file order. -/
def readRows : List TableRow :=
  [readRow 0x000000000000#48 .rdId,
   readRow 0x000400000000#48 .rdCmd,
   readRow 0x000800000000#48 .rdStatus,
   readRow 0x000C00000000#48 .rdErr,
   readRow 0x001000000000#48 .rdIntStatus,
   readRow 0x001400000000#48 .rdIntEnable,
   readRow 0x001800000000#48 .rdCfg,
   readRow 0x001C00000000#48 .rdWidth,
   readRow 0x002000000000#48 .rdHeight,
   readRow 0x002400000000#48 .rdSrcBase,
   readRow 0x002800000000#48 .rdSrcStride,
   readRow 0x002C00000000#48 .rdDstBase,
   readRow 0x003000000000#48 .rdDstStride,
   readRow 0x003400000000#48 .rdClutIndex,
   readRow 0x003800000000#48 .rdClutData,
   readRow 0x003C00000000#48 .rdCubeIndex,
   readRow 0x004000000000#48 .rdCubeData,
   readRow 0x004400000000#48 .rdLayout]

/-- The register write rows, in file order. -/
def writeRows : List TableRow :=
  [writeRow 0x800000000000#48 .wrId,
   writeRow 0x800800000000#48 .wrStatus,
   writeRow 0x800C00000000#48 .wrErr,
   writeRow 0x801000000000#48 .wrIntStatus,
   writeRow 0x801400000000#48 .wrIntEnable,
   writeRow 0x801800000000#48 .wrCfg,
   writeRow 0x801C00000000#48 .wrWidth,
   writeRow 0x802000000000#48 .wrHeight,
   writeRow 0x802400000000#48 .wrSrcBase,
   writeRow 0x802800000000#48 .wrSrcStride,
   writeRow 0x802C00000000#48 .wrDstBase,
   writeRow 0x803000000000#48 .wrDstStride,
   writeRow 0x803400000000#48 .wrClutIndex,
   writeRow 0x803800000000#48 .wrClutData,
   writeRow 0x803C00000000#48 .wrCubeIndex,
   writeRow 0x804000000000#48 .wrCubeData,
   writeRow 0x804400000000#48 .wrLayout]

/-- The command rows, the reserved command and the two unmapped catch-alls, in file order (R90, R93). -/
def commandRows : List TableRow :=
  [commandRow 0x800400000000#48 .cmdNop,
   commandRow 0x800400000001#48 .cmdStart,
   commandRow 0x800400000002#48 .cmdClearErr,
   commandRow 0x800400000003#48 .cmdCubeInvalidate,
   commandRow 0x800400000004#48 .cmdCubeCommit,
   writeRow 0x800400000000#48 .cmdReserved,
   ⟨0x800000000000#48, 0x000000000000#48, fun w => .rdUnmapped (htwOffset w)⟩,
   ⟨0x800000000000#48, 0x800000000000#48, fun w => .wrUnmapped (htwOffset w) (htwWdata w)⟩]

/-- The whole table, in file order. -/
def tableRows : List TableRow := rsvRows ++ readRows ++ writeRows ++ commandRows

/-- Whether a word matches a row (R93). -/
def TableRow.hits (r : TableRow) (w : Htw) : Bool := w &&& r.mask == r.matchBits

/-- Decoding by the table: "picks the first row with `(HTW & mask) == match`" (R93). -/
def decodeByTable (w : Htw) : Option Instr := (tableRows.find? fun r => r.hits w).map fun r => r.build w

/-! ### The host's view of the decoder -/

/-- The instruction that the decoder reads from an instruction of `nbits` bits `w`. An HTW is one 48-bit word (R85,
R95), so bits above `nbits` are 0 and a longer instruction does not exist. -/
def decodeTableWord (nbits w : Nat) : Option Instr :=
  if nbits ≤ 48 then some (decode (BitVec.ofNat 48 (w % 2 ^ nbits))) else none

end Sys2Proof
end

