-- ==== Sys2Proof/Config.lean ====
section
/-! DEFINITION. What an implementation or a platform fixes (00_scope.md R7), and the one value that the spec leaves
to a race (20_memory.md R74). An `opaque` constant has no body: nothing can be proved of its value. -/

namespace Sys2Proof

/-- The ID register's constant (R21, R102): "PX", major version 1, minor version 0. -/
def Config.idValue : Word := 0x50580100#32

/-- The size of the pixel address space in bytes (R7: ADDR_W, R60). -/
def Config.addressSpace : Nat := 2 ^ 32

/-- The number of CLUT entries (R7, R44). -/
def Config.clutEntries : Nat := 256

/-- The number of CUBE entries (R7, R44). -/
def Config.cubeEntries : Nat := 2 ^ 24

/-- REG_BASE, the platform address of the register window: an OPEN parameter (R7, R61). No rule of the block depends
on it. -/
opaque Config.regBase : Nat

/-- The platform address of a register: the window's base plus the offset that the block decodes (R61). -/
def Config.registerAddress (off : Offset) : Nat := Config.regBase + off.toNat

/-- The free value of a race between the host and a job (R74, I3; log entry 3): at the `n`-th such race, which of the
candidate bytes a host read gets, or where among a job's writes a host write falls (taken modulo their number). -/
opaque Config.raceChoice : Nat → Nat

end Sys2Proof
end

