-- ==== Sys2Proof/Machine/State.lean ====
section
/-! DEFINITION. The state of the machine: the block's registers, LUT RAMs and hidden engine state (10_state.md), the
platform's pixel memory (20_memory.md R62), and the model's own bookkeeping of what the host does next and sees. -/

namespace Sys2Proof.Machine

/-- The ten packed pixel formats, in the order of their CFG.FMT codes 0 to 9 (R32). CFG cannot hold another (R31). -/
inductive PixelFormat where
  | rgb24 | bgr24 | rgba | bgra | abgr | argb | zbgr | zrgb | rgbz | bgrz
  deriving DecidableEq, Repr

/-- The LUT mode CFG.MODE (R33): 0 = CLUT, 1 = CUBE. CFG cannot hold another (R31). -/
inductive LutMode where
  | clut | cube
  deriving DecidableEq, Repr

/-- The error codes 0x00 to 0x0A of ERR.CODE (R231). Codes 0x0B to 0xFF are never raised. -/
inductive ErrCode where
  | noError | cfgFormat | cfgMode | cubeNotReady | stride | align | range | overlap | busy | badReg | badCmd
  deriving DecidableEq, Repr

/-- The ERR register's fields (R28). -/
structure ErrRecord where
  code : ErrCode
  ovf : Bool
  info : BitVec 16
  deriving DecidableEq, Repr

/-- The CFG register's fields (R31). -/
structure Cfg where
  fmt : PixelFormat
  mode : LutMode
  alignLog2 : BitVec 3
  deriving DecidableEq, Repr

/-- Pixel memory (R62): the bytes that differ from what an unlisted address reads as, by strictly rising address. -/
abbrev Memory := List Host.Cell

/-- A LUT RAM (R44, R45): its written entries, by strictly rising index. An unlisted entry is `unwritten`. -/
abbrev Lut (w : Nat) := List (Nat × BitVec w)

/-- A range of pixel memory whose engine reads or engine writes the platform does not admit (R62, R82). -/
structure Hole where
  base : Nat
  size : Nat
  refusesRead : Bool
  refusesWrite : Bool
  deriving DecidableEq, Repr

/-- What the host got back from its last transaction or memory read (R9: `reply(v)`; R74). -/
inductive Reply where
  /-- No reply: the last transaction was a write, or there was none. -/
  | nothing
  /-- The 32-bit reply of a register read. -/
  | word (v : Word)
  /-- The byte of a host read of pixel memory. -/
  | byte (v : Byte)
  deriving DecidableEq, Repr

/-- What can happen next (R70, R260, R276): whole host transactions, whole engine steps and resets, in any order, with
the host's own accesses to pixel memory (R60, R74, R75) and the platform's admission of engine accesses (R82). -/
inductive Event where
  /-- The host issues one register transaction, its HTW as the bus carries it (R85). -/
  | txn (htw : Htw)
  /-- The engine takes its next step, if it has one (R174). -/
  | engine
  /-- The reset input is asserted (R260). -/
  | reset
  /-- The host writes a byte of pixel memory (R60, R75). -/
  | hostWrite (addr : Word) (v : Byte)
  /-- The host reads a byte of pixel memory (R74). -/
  | hostRead (addr : Word)
  /-- The host looks at the irq line, and sees whether it has risen (R74, R237). -/
  | hostSeesIrq
  /-- The platform changes which engine accesses it admits (R62: "admits or refuses per access"). -/
  | platform (holes : List Hole)
  deriving DecidableEq, Repr

/-- Why the machine stops in a state with no hardware meaning in the spec (R235). -/
inductive Fault where
  /-- `fault(LUT_UNWRITTEN)`: raised by a host-port read (R152, R156) or an engine lookup (R199) of an entry that
  nothing has written. Safe: the hardware returns a value that the spec cannot name, and the model stops. -/
  | lutUnwritten
  /-- `fault(MEM_NOT_ADMITTED)`: raised by an engine access that the platform does not admit, or that lies outside the
  address space (R82). Safe: the platform's behaviour is open, and the model stops. -/
  | memNotAdmitted
  deriving DecidableEq, Repr

/-- Why the model gives a step no meaning. -/
inductive Refusal where
  /-- Raised by `exec` for an instruction without a meaning; `mnemonic` is its row's. Safe: the model stops. -/
  | notModelled (mnemonic : String)
  /-- Raised for an HTW with RSV != 0, which "no bus produces" (R88). Safe: the model stops. -/
  | rsv
  /-- Raised for a host write to the source or destination extent while BUSY = 1: "the model gives the host no move
  that writes those extents" (R75, I4). Safe: the model stops. -/
  | hostWriteDuringJob
  deriving DecidableEq, Repr

/-- The whole machine. The comment of a field names the rule that gives it. -/
structure State where
  /-- STATUS.BUSY (R24, R25). -/
  busy : Bool
  /-- STATUS.CUBE_READY (R24, R26). -/
  cubeReady : Bool
  /-- ERR.CODE, ERR.OVF and ERR.INFO (R28). -/
  err : ErrRecord
  /-- INT_STATUS.DONE (R29). -/
  done : Bool
  /-- INT_ENABLE.DONE_IE (R30). -/
  doneIe : Bool
  /-- INT_ENABLE.ERR_IE (R30). -/
  errIe : Bool
  /-- CFG (R31). -/
  cfg : Cfg
  /-- WIDTH (R35). -/
  width : BitVec 16
  /-- HEIGHT (R35). -/
  height : BitVec 16
  /-- SRC_BASE (R36). -/
  srcBase : Word
  /-- SRC_STRIDE (R36). -/
  srcStride : Word
  /-- DST_BASE (R36). -/
  dstBase : Word
  /-- DST_STRIDE (R36). -/
  dstStride : Word
  /-- CLUT_INDEX (R40). -/
  clutIndex : BitVec 8
  /-- CUBE_INDEX (R42). -/
  cubeIndex : Key
  /-- The CLUT RAM (R44, R45). -/
  clut : Lut 8
  /-- The CUBE RAM (R44, R45). -/
  cube : Lut 24
  /-- The cursor's column (R46). -/
  curX : BitVec 16
  /-- The cursor's row (R46). -/
  curY : BitVec 16
  /-- The INPLACE latch (R47). -/
  inplace : Bool
  /-- Pixel memory, which belongs to the platform (R62). -/
  mem : Memory
  /-- The engine accesses that the platform does not admit (R62, R82). -/
  holes : List Hole
  /-- The model's own: for each byte that the engine wrote and whose write the host has not yet seen completed, the
  bytes that stood there before, the latest first (R74). -/
  stale : List Host.Cell
  /-- The model's own: how many races between the host and a job have been decided, the argument of
  `Config.raceChoice` (R74). -/
  races : Nat
  /-- The model's own: whether irq rose for DONE when DONE last began to drive it, so that a look at irq shows that rise
  (R74: "sees irq rise for DONE"; log entry 20). -/
  irqRose : Bool
  /-- The model's own: the reply that the host last got (R9). -/
  reply : Reply
  /-- The model's own: the events to come, in the order in which they are serialised (R70, R276). -/
  inbox : List Event
  deriving DecidableEq, Repr

/-- The machine right after reset (R50, R263), with the platform's memory unwritten, every access admitted and no event
to come (log entries 1, 4, 5, 6). -/
def State.reset : State where
  busy := false
  cubeReady := false
  err := ⟨.noError, false, 0#16⟩
  done := false
  doneIe := false
  errIe := false
  cfg := ⟨.rgb24, .clut, 0#3⟩
  width := 0#16
  height := 0#16
  srcBase := 0#32
  srcStride := 0#32
  dstBase := 0#32
  dstStride := 0#32
  clutIndex := 0#8
  cubeIndex := 0#24
  clut := []
  cube := []
  curX := 0#16
  curY := 0#16
  inplace := false
  mem := []
  holes := []
  stale := []
  races := 0
  irqRose := false
  reply := .nothing
  inbox := []

end Sys2Proof.Machine
end

