-- ==== Sys2Proof/Machine/Operands.lean ====
section
/-! DEFINITION. The operands that each write takes from WDATA (30_encoding.md R92), and the codes of CFG's fields
(10_state.md R32, R33). -/

namespace Sys2Proof.Machine

/-! ### Operand assembly (R92): zero-extended or truncated, never scaled or shifted -/

/-- INT_STATUS: WDATA[0], 1 clears DONE. -/
def operandDoneClear (d : Word) : Bool := d.getLsbD 0

/-- INT_ENABLE.DONE_IE: WDATA[0]. -/
def operandDoneIe (d : Word) : Bool := d.getLsbD 0

/-- INT_ENABLE.ERR_IE: WDATA[1]. -/
def operandErrIe (d : Word) : Bool := d.getLsbD 1

/-- CFG.FMT: WDATA[3:0]. -/
def operandFmt (d : Word) : BitVec 4 := d.extractLsb' 0 4

/-- CFG.MODE: WDATA[5:4]. -/
def operandMode (d : Word) : BitVec 2 := d.extractLsb' 4 2

/-- CFG.ALIGN_LOG2: WDATA[10:8]. -/
def operandAlignLog2 (d : Word) : BitVec 3 := d.extractLsb' 8 3

/-- WIDTH and HEIGHT: WDATA[15:0]. -/
def operandDim (d : Word) : BitVec 16 := d.extractLsb' 0 16

/-- CLUT_INDEX and CLUT_DATA: WDATA[7:0]. -/
def operandByte (d : Word) : Byte := d.extractLsb' 0 8

/-- CUBE_INDEX and CUBE_DATA: WDATA[23:0]. -/
def operandKey (d : Word) : Key := d.extractLsb' 0 24

/-- The INFO of a reserved command: WDATA[15:0] (R146, R232). -/
def operandCommandInfo (d : Word) : BitVec 16 := d.extractLsb' 0 16

/-! ### Field codes -/

/-- The format of an FMT code; none for the reserved codes 10 to 15 (R32). -/
def formatOfCode (c : BitVec 4) : Option PixelFormat :=
  match c.toNat with
  | 0 => some .rgb24
  | 1 => some .bgr24
  | 2 => some .rgba
  | 3 => some .bgra
  | 4 => some .abgr
  | 5 => some .argb
  | 6 => some .zbgr
  | 7 => some .zrgb
  | 8 => some .rgbz
  | 9 => some .bgrz
  | _ => none

/-- The FMT code of a format (R32). -/
def formatCode : PixelFormat → BitVec 4
  | .rgb24 => 0#4
  | .bgr24 => 1#4
  | .rgba => 2#4
  | .bgra => 3#4
  | .abgr => 4#4
  | .argb => 5#4
  | .zbgr => 6#4
  | .zrgb => 7#4
  | .rgbz => 8#4
  | .bgrz => 9#4

/-- The mode of a MODE code; none for the reserved codes 2 and 3 (R33). -/
def modeOfCode (c : BitVec 2) : Option LutMode :=
  match c.toNat with
  | 0 => some .clut
  | 1 => some .cube
  | _ => none

/-- The MODE code of a mode (R33). -/
def modeCode : LutMode → BitVec 2
  | .clut => 0#2
  | .cube => 1#2

/-- The 8-bit value of ERR.CODE (R231). -/
def errCodeValue : ErrCode → BitVec 8
  | .noError => 0x00#8
  | .cfgFormat => 0x01#8
  | .cfgMode => 0x02#8
  | .cubeNotReady => 0x03#8
  | .stride => 0x04#8
  | .align => 0x05#8
  | .range => 0x06#8
  | .overlap => 0x07#8
  | .busy => 0x08#8
  | .badReg => 0x09#8
  | .badCmd => 0x0A#8

/-! ### Pixel layouts (10_state.md R37) -/

/-- The source's PixelLayout: the byte offset of each channel, the step, and whether there is a fourth byte and whether
it is alpha. -/
structure Layout where
  rOff : Nat
  gOff : Nat
  bOff : Nat
  /-- 0, and without meaning, for the 3-byte formats (R39). -/
  aOff : Nat
  step : Nat
  has4 : Bool
  alpha : Bool
  deriving DecidableEq, Repr

/-- The layout of each format (R37). PRESUMED (log entry 10): the byte offsets are the spec's general knowledge. -/
def layoutOf : PixelFormat → Layout
  | .rgb24 => ⟨0, 1, 2, 0, 3, false, false⟩
  | .bgr24 => ⟨2, 1, 0, 0, 3, false, false⟩
  | .rgba => ⟨0, 1, 2, 3, 4, true, true⟩
  | .bgra => ⟨2, 1, 0, 3, 4, true, true⟩
  | .abgr => ⟨3, 2, 1, 0, 4, true, true⟩
  | .argb => ⟨1, 2, 3, 0, 4, true, true⟩
  | .zbgr => ⟨3, 2, 1, 0, 4, true, false⟩
  | .zrgb => ⟨1, 2, 3, 0, 4, true, false⟩
  | .rgbz => ⟨0, 1, 2, 3, 4, true, false⟩
  | .bgrz => ⟨2, 1, 0, 3, 4, true, false⟩

/-- `STEP(fmt)`, the bytes of a pixel (R166). -/
def stepOf (f : PixelFormat) : Nat := (layoutOf f).step

end Sys2Proof.Machine
end

