-- ==== Sys2Proof/Machine/Ops.lean ====
section
/-! DEFINITION. The named operations over memory, the LUT RAMs, the error record and the reply that every meaning
shares: recording an error (60_exceptions.md R233) and its return (R244), and the busy guard (40_register_access.md
R100), stand here once. -/

namespace Sys2Proof.Machine

/-- The outcome of a step of this machine. -/
abbrev Result := Host.Outcome State Fault Refusal

/-! ### Lists of entries by rising key -/

/-- The keys rise strictly from `lo` on and lie below `hi`, and every value passes `ok`. -/
def risingIn {α : Type} (ok : α → Bool) (hi : Nat) : Nat → List (Nat × α) → Bool
  | _, [] => true
  | lo, (k, v) :: rest => decide (lo ≤ k) && decide (k < hi) && ok v && risingIn ok hi (k + 1) rest

/-- The value listed at a key, if there is one. -/
def lookupKey {α : Type} : List (Nat × α) → Nat → Option α
  | [], _ => none
  | (k, v) :: rest, a => if k = a then some v else lookupKey rest a

/-- The list with the value at a key replaced or put in its place. -/
def insertKey {α : Type} : List (Nat × α) → Nat → α → List (Nat × α)
  | [], a, x => [(a, x)]
  | (k, v) :: rest, a, x =>
    if a < k then (a, x) :: (k, v) :: rest
    else if a = k then (a, x) :: rest
    else (k, v) :: insertKey rest a x

/-- The list without the entry at a key. -/
def eraseKey {α : Type} : List (Nat × α) → Nat → List (Nat × α)
  | [], _ => []
  | (k, v) :: rest, a => if k = a then rest else (k, v) :: eraseKey rest a

/-! ### Pixel memory (20_memory.md R62, R66) -/

/-- What a byte of pixel memory that nothing has written reads as (log entry 4: DESIGN CHOICE, unsafe). -/
def unwrittenByte : Byte := 0#8

/-- The byte at an address: `MemRead(addr, 1)` (R9, R66). -/
def Memory.read (m : Memory) (a : Nat) : Byte := (lookupKey m a).getD unwrittenByte

/-- Memory with one byte stored: `MemWrite(addr, 1, v)` (R9, R66). -/
def Memory.write (m : Memory) (a : Nat) (v : Byte) : Memory :=
  if v = unwrittenByte then eraseKey m a else insertKey m a v

/-- The canonical form of pixel memory: addresses rise strictly within the address space, and no entry is equal to
what an unlisted address reads as. -/
def Memory.wf (m : Memory) : Bool := risingIn (fun v => v != unwrittenByte) Config.addressSpace 0 m

/-- Whether a hole covers an address. -/
def Hole.covers (h : Hole) (a : Nat) : Bool := decide (h.base ≤ a) && decide (a < h.base + h.size)

/-- Whether the platform admits an engine read of an address (R62, R82). No memory lies outside the address space
(R71). -/
def admitsRead (s : State) (a : Nat) : Bool :=
  decide (a < Config.addressSpace) && s.holes.all fun h => !(h.refusesRead && h.covers a)

/-- Whether the platform admits an engine write of an address (R62, R82). -/
def admitsWrite (s : State) (a : Nat) : Bool :=
  decide (a < Config.addressSpace) && s.holes.all fun h => !(h.refusesWrite && h.covers a)

/-- An engine read of one byte; none where the platform does not admit it (R66, R82). -/
def engineRead (s : State) (a : Nat) : Option Byte := if admitsRead s a then some (s.mem.read a) else none

/-- An engine write of one byte; none where the platform does not admit it (R66, R82). The byte that stood there is
kept as one that the host may still see (R74). -/
def engineWrite (s : State) (a : Nat) (v : Byte) : Option State :=
  if admitsWrite s a then
    some { s with mem := s.mem.write a v, stale := (a, s.mem.read a) :: s.stale }
  else none

/-! ### The LUT RAMs (10_state.md R44, R45) -/

/-- A LUT entry: none where it is `unwritten` (R45). -/
def Lut.entry {w : Nat} (l : Lut w) (i : Nat) : Option (BitVec w) := lookupKey l i

/-- The LUT with one entry written whole (R45, R70). -/
def Lut.store {w : Nat} (l : Lut w) (i : Nat) (v : BitVec w) : Lut w := insertKey l i v

/-- The canonical form of a LUT of `n` entries: indices rise strictly and lie below `n`. -/
def Lut.wf {w : Nat} (n : Nat) (l : Lut w) : Bool := risingIn (fun _ => true) n 0 l

/-! ### Replies (00_scope.md R9) -/

/-- A write transaction ends: there is no reply. -/
def endWrite (s : State) : Result := .next { s with reply := .nothing }

/-- A read transaction ends with `reply(v)`. -/
def endRead (s : State) (v : Word) : Result := .next { s with reply := .word v }

/-! ### Errors (60_exceptions.md) -/

/-- `raise Error(code, info)` on the error record: the first error is kept, and a later one sets OVF (R233). -/
def ErrRecord.record (e : ErrRecord) (code : ErrCode) (info : BitVec 16) : ErrRecord :=
  if e.code = .noError then { e with code := code, info := info } else { e with ovf := true }

/-- Recording an error changes nothing but ERR (R233, R234). This is the machine's one exception entry (R242). -/
def raiseError (s : State) (code : ErrCode) (info : BitVec 16) : State := { s with err := s.err.record code info }

/-- The return from error handling: CODE, OVF and INFO become 0 (R143, R244). -/
def clearError (s : State) : State := { s with err := ⟨.noError, false, 0#16⟩ }

/-- A refused write: the error, and no other effect (R234). -/
def refuseWrite (s : State) (code : ErrCode) (info : BitVec 16) : Result := endWrite (raiseError s code info)

/-- A refused read: the error, and the reply 0 (R234). -/
def refuseRead (s : State) (code : ErrCode) (info : BitVec 16) : Result := endRead (raiseError s code info) 0#32

/-- A write to a read-only or unmapped offset (R91, R128): ERR_BADREG with the offset as INFO (R232). -/
def refuseBadReg (s : State) (off : Offset) : Result := refuseWrite s .badReg (off.zeroExtend 16)

/-- `busy_guard(off)` before a write (R100): ERR_BUSY with the offset as INFO while BUSY = 1, else the write's own
result. -/
def guardWrite (s : State) (off : Offset) (result : Result) : Result :=
  if s.busy then refuseWrite s .busy (off.zeroExtend 16) else result

/-- `busy_guard(off)` before a read of a data window (R100, R152, R156). -/
def guardRead (s : State) (off : Offset) (result : Result) : Result :=
  if s.busy then refuseRead s .busy (off.zeroExtend 16) else result

/-! ### The completion order (20_memory.md R74) -/

/-- A host read that shows the job complete orders all its writes before every later host access (R74). -/
def seeCompletion (s : State) : State := if s.busy then s else { s with stale := [] }

end Sys2Proof.Machine
end

