-- ==== Sys2Proof/Machine/Iterator.lean ====
section
/-! DEFINITION. The streaming pixel iterator (43_pixel_iterator.md): the START checks, the addresses that the engine
visits, and the cursor. All arithmetic is exact on natural numbers (R8, R165). -/

namespace Sys2Proof.Machine

/-! ### The frame (R166, R167, R169, R175) -/

/-- `W*S`, the bytes of a row's payload (R167). -/
def rowBytes (s : State) : Nat := s.width.toNat * stepOf s.cfg.fmt

/-- `src_end()`, one past the last byte that the job can read (R169, for a non-empty frame). -/
def srcEnd (s : State) : Nat := s.srcBase.toNat + (s.height.toNat - 1) * s.srcStride.toNat + rowBytes s

/-- `dst_end()`, one past the last byte that the job can write (R169, for a non-empty frame). -/
def dstEnd (s : State) : Nat := s.dstBase.toNat + (s.height.toNat - 1) * s.dstStride.toNat + rowBytes s

/-- `src_px(x, y)` (R175). -/
def srcPx (s : State) (x y : Nat) : Nat := s.srcBase.toNat + y * s.srcStride.toNat + x * stepOf s.cfg.fmt

/-- `dst_px(x, y)` (R175). -/
def dstPx (s : State) (x y : Nat) : Nat := s.dstBase.toNat + y * s.dstStride.toNat + x * stepOf s.cfg.fmt

/-- Whether an address lies in the source or the destination extent (R169). -/
def inExtents (s : State) (a : Nat) : Bool :=
  (decide (s.srcBase.toNat ≤ a) && decide (a < srcEnd s)) || (decide (s.dstBase.toNat ≤ a) && decide (a < dstEnd s))

/-- `WIDTH = 0 or HEIGHT = 0` (R35, R171). -/
def emptyFrame (s : State) : Bool := s.width == 0#16 || s.height == 0#16

/-- `is_inplace()` (R172). -/
def isInplace (s : State) : Bool := s.srcBase == s.dstBase && s.srcStride == s.dstStride

/-- `overlaps()`: the two extents share at least one byte (R170). -/
def overlaps (s : State) : Bool := decide (s.srcBase.toNat < dstEnd s) && decide (s.dstBase.toNat < srcEnd s)

/-- The alignment in bytes, `2^CFG.ALIGN_LOG2` (R34, R168). -/
def alignment (s : State) : Nat := 2 ^ s.cfg.alignLog2.toNat

/-- Whether a base or stride is a multiple of the alignment (R168). -/
def aligned (s : State) (v : Word) : Bool := v.toNat % alignment s == 0

/-! ### START (R165) -/

/-- The checks of START that follow the empty-frame check, in their order: the first that fails gives its code and INFO
(R165, R167 to R170, R240). -/
def geometryError (s : State) : Option (ErrCode × BitVec 16) :=
  if s.srcStride.toNat < rowBytes s then some (.stride, 0#16)
  else if s.dstStride.toNat < rowBytes s then some (.stride, 1#16)
  else if !aligned s s.srcBase then some (.align, 0#16)
  else if !aligned s s.srcStride then some (.align, 1#16)
  else if !aligned s s.dstBase then some (.align, 2#16)
  else if !aligned s s.dstStride then some (.align, 3#16)
  else if srcEnd s > Config.addressSpace then some (.range, 0#16)
  else if dstEnd s > Config.addressSpace then some (.range, 1#16)
  else if !isInplace s && overlaps s then some (.overlap, 0#16)
  else none

/-- `empty_job()`: DONE at once, and nothing else (R171). -/
def emptyJob (s : State) : State := { s with done := true }

/-- `accept(inplace)` (R173). -/
def acceptJob (s : State) : State :=
  { s with inplace := isInplace s, curX := 0#16, curY := 0#16, done := false, busy := true }

/-- `start_job()`: the checks in the order of R165; the first that fails raises its error and ends the command. -/
def startJob (s : State) : Result :=
  guardWrite s 0x004#12 <|
    if s.cfg.mode = .cube ∧ s.cubeReady = false then refuseWrite s .cubeNotReady 0#16
    else if emptyFrame s then endWrite (emptyJob s)
    else match geometryError s with
      | some (code, info) => refuseWrite s code info
      | none => endWrite (acceptJob s)

/-! ### The cursor (R176, R177) -/

/-- `complete()` (R177). -/
def completeJob (s : State) : State := { s with busy := false, done := true }

/-- The cursor's advance after a pixel (R176). -/
def advanceCursor (s : State) : State :=
  if s.curX.toNat + 1 < s.width.toNat then { s with curX := s.curX + 1#16 }
  else if s.curY.toNat + 1 < s.height.toNat then { s with curX := 0#16, curY := s.curY + 1#16 }
  else completeJob { s with curX := 0#16 }

end Sys2Proof.Machine
end

