-- ==== Sys2Proof/Machine/Commands.lean ====
section
/-! DEFINITION. The commands, writes to CMD (41_commands.md R140 to R146), and the HTWs with RSV != 0 (30_encoding.md
R88). -/

namespace Sys2Proof.Machine

/-- CMD NOP: it does nothing (R141). -/
def execCmdNop (s : State) : Result := endWrite s

/-- CMD START: `start_job()` (R142, R165). -/
def execCmdStart (s : State) : Result := startJob s

/-- CMD CLEAR_ERR: the return from error handling, allowed while BUSY = 1 (R143, R244). -/
def execCmdClearErr (s : State) : Result := endWrite (clearError s)

/-- CMD CUBE_INVALIDATE: the CUBE contents are not changed (R144). -/
def execCmdCubeInvalidate (s : State) : Result := guardWrite s 0x004#12 (endWrite { s with cubeReady := false })

/-- CMD CUBE_COMMIT: it does not check that every entry was written (R145). -/
def execCmdCubeCommit (s : State) : Result := guardWrite s 0x004#12 (endWrite { s with cubeReady := true })

/-- A reserved command: ERR_BADCMD whatever BUSY is (R146). -/
def execCmdReserved (wdata : Word) (s : State) : Result := refuseWrite s .badCmd (operandCommandInfo wdata)

/-- An HTW with RSV bit 46 set: the model gives it no meaning (R88, D44). -/
def execRsvRefusedB46 (_we : Bool) (_rsvLow : BitVec 2) (_off : Offset) (_wdata : Word) (_s : State) : Result :=
  .refused .rsv

/-- An HTW with RSV bit 45 set: the model gives it no meaning (R88, D44). -/
def execRsvRefusedB45 (_we : Bool) (_rsvLow : BitVec 1) (_off : Offset) (_wdata : Word) (_s : State) : Result :=
  .refused .rsv

/-- An HTW with RSV bit 44 set: the model gives it no meaning (R88, D44). -/
def execRsvRefusedB44 (_we : Bool) (_off : Offset) (_wdata : Word) (_s : State) : Result := .refused .rsv

end Sys2Proof.Machine
end

