-- ==== Sys2Proof/Machine/LutPort.lean ====
section
/-! DEFINITION. The LUT host port: the index registers and data windows of the CLUT and the CUBE (42_lut_port.md R150
to R157). The index arithmetic wraps, since the registers hold 8 and 24 bits (R40, R42). -/

namespace Sys2Proof.Machine

/-- RD CLUT_INDEX: not busy-guarded (R150). -/
def execRdClutIndex (s : State) : Result := endRead s (s.clutIndex.zeroExtend 32)

/-- WR CLUT_INDEX (R151). -/
def execWrClutIndex (wdata : Word) (s : State) : Result :=
  guardWrite s 0x034#12 (endWrite { s with clutIndex := operandByte wdata })

/-- RD CLUT_DATA: the entry at CLUT_INDEX, and the index advances; an unwritten entry is `fault(LUT_UNWRITTEN)`
(R152). -/
def execRdClutData (s : State) : Result :=
  guardRead s 0x038#12 <|
    match s.clut.entry s.clutIndex.toNat with
    | some e => endRead { s with clutIndex := s.clutIndex + 1#8 } (e.zeroExtend 32)
    | none => .fault .lutUnwritten

/-- WR CLUT_DATA: it stores WDATA[7:0] at CLUT_INDEX, and the index advances (R153). -/
def execWrClutData (wdata : Word) (s : State) : Result :=
  guardWrite s 0x038#12 <|
    endWrite { s with clut := s.clut.store s.clutIndex.toNat (operandByte wdata), clutIndex := s.clutIndex + 1#8 }

/-- RD CUBE_INDEX: not busy-guarded (R154). -/
def execRdCubeIndex (s : State) : Result := endRead s (s.cubeIndex.zeroExtend 32)

/-- WR CUBE_INDEX (R155). -/
def execWrCubeIndex (wdata : Word) (s : State) : Result :=
  guardWrite s 0x03C#12 (endWrite { s with cubeIndex := operandKey wdata })

/-- RD CUBE_DATA: the entry at CUBE_INDEX, and the index advances; CUBE_READY is unchanged; an unwritten entry is
`fault(LUT_UNWRITTEN)` (R156). -/
def execRdCubeData (s : State) : Result :=
  guardRead s 0x040#12 <|
    match s.cube.entry s.cubeIndex.toNat with
    | some e => endRead { s with cubeIndex := s.cubeIndex + 1#24 } (e.zeroExtend 32)
    | none => .fault .lutUnwritten

/-- WR CUBE_DATA: it stores WDATA[23:0] at CUBE_INDEX, clears CUBE_READY, and the index advances (R157). -/
def execWrCubeData (wdata : Word) (s : State) : Result :=
  guardWrite s 0x040#12 <|
    endWrite { s with
      cube := s.cube.store s.cubeIndex.toNat (operandKey wdata),
      cubeReady := false,
      cubeIndex := s.cubeIndex + 1#24 }

end Sys2Proof.Machine
end

