-- ==== Sys2Proof/Machine/Flags.lean ====
section
/-! DEFINITION. The status views and register words of the block: what each register shows of the state (10_state.md
R21 to R43, R49), and the irq line (60_exceptions.md R237). -/

namespace Sys2Proof.Machine

/-- `ERR.CODE != 0`: the ERR interrupt source and STATUS.ERR (R27, R236). -/
def errPending (s : State) : Bool := s.err.code != .noError

/-- Whether DONE drives irq (R236, R238). -/
def doneDrives (s : State) : Bool := s.done && s.doneIe

/-- Whether ERR drives irq (R236, R238). -/
def errDrives (s : State) : Bool := errPending s && s.errIe

/-- The level of the irq output (R237). -/
def irq (s : State) : Bool := doneDrives s || errDrives s

/-- STATUS (R24, R104): IRQ, DONE, ERR, CUBE_READY and BUSY in bits 4 to 0. -/
def statusWord (s : State) : Word :=
  0#27 ++ BitVec.ofBool (irq s) ++ BitVec.ofBool s.done ++ BitVec.ofBool (errPending s) ++
    BitVec.ofBool s.cubeReady ++ BitVec.ofBool s.busy

/-- ERR (R28, R106): INFO in [31:16], OVF in [8], CODE in [7:0]. -/
def errWord (e : ErrRecord) : Word := e.info ++ 0#7 ++ BitVec.ofBool e.ovf ++ errCodeValue e.code

/-- INT_STATUS (R29, R108). -/
def intStatusWord (s : State) : Word := (BitVec.ofBool s.done).zeroExtend 32

/-- INT_ENABLE (R30, R110): ERR_IE in bit 1, DONE_IE in bit 0. -/
def intEnableWord (s : State) : Word := (BitVec.ofBool s.errIe ++ BitVec.ofBool s.doneIe).zeroExtend 32

/-- CFG (R31, R113): ALIGN_LOG2 in [10:8], MODE in [5:4], FMT in [3:0]. -/
def cfgWord (c : Cfg) : Word := 0#21 ++ c.alignLog2 ++ 0#2 ++ modeCode c.mode ++ formatCode c.fmt

/-- LAYOUT (R38, R126): ALPHA [12], HAS4 [11], STEP [10:8], A_OFF [7:6], B_OFF [5:4], G_OFF [3:2], R_OFF [1:0]. -/
def layoutWord (f : PixelFormat) : Word :=
  let l := layoutOf f
  0#19 ++ BitVec.ofBool l.alpha ++ BitVec.ofBool l.has4 ++ BitVec.ofNat 3 l.step ++ BitVec.ofNat 2 l.aOff ++
    BitVec.ofNat 2 l.bOff ++ BitVec.ofNat 2 l.gOff ++ BitVec.ofNat 2 l.rOff

end Sys2Proof.Machine
end

