-- ==== Sys2Proof/Machine/RegisterReads.lean ====
section
/-! DEFINITION. The reads of the control, status and configuration registers (40_register_access.md R102 to R127). No
read of this family is busy-guarded (R22). -/

namespace Sys2Proof.Machine

/-- RD ID (R102). -/
def execRdId (s : State) : Result := endRead s Config.idValue

/-- RD CMD: CMD holds no state and reads 0 (R23, R103). -/
def execRdCmd (s : State) : Result := endRead s 0#32

/-- RD STATUS (R104). A read that shows BUSY = 0 is the completion point of R74. -/
def execRdStatus (s : State) : Result := endRead (seeCompletion s) (statusWord s)

/-- RD ERR (R106): the read does not clear ERR. With BUSY = 0 it is a completion point of R74. -/
def execRdErr (s : State) : Result := endRead (seeCompletion s) (errWord s.err)

/-- RD INT_STATUS (R108): the read does not clear DONE. With BUSY = 0 it is a completion point of R74. -/
def execRdIntStatus (s : State) : Result := endRead (seeCompletion s) (intStatusWord s)

/-- RD INT_ENABLE (R110). -/
def execRdIntEnable (s : State) : Result := endRead s (intEnableWord s)

/-- RD CFG (R113). -/
def execRdCfg (s : State) : Result := endRead s (cfgWord s.cfg)

/-- RD WIDTH (R114). -/
def execRdWidth (s : State) : Result := endRead s (s.width.zeroExtend 32)

/-- RD HEIGHT (R116). -/
def execRdHeight (s : State) : Result := endRead s (s.height.zeroExtend 32)

/-- RD SRC_BASE (R118). -/
def execRdSrcBase (s : State) : Result := endRead s s.srcBase

/-- RD SRC_STRIDE (R120). -/
def execRdSrcStride (s : State) : Result := endRead s s.srcStride

/-- RD DST_BASE (R122). -/
def execRdDstBase (s : State) : Result := endRead s s.dstBase

/-- RD DST_STRIDE (R124). -/
def execRdDstStride (s : State) : Result := endRead s s.dstStride

/-- RD LAYOUT: the layout resolved from the current CFG.FMT (R38, R126). -/
def execRdLayout (s : State) : Result := endRead s (layoutWord s.cfg.fmt)

/-- RD unmapped: "an unmapped read records nothing" and replies 0 (R127). -/
def execRdUnmapped (_off : Offset) (s : State) : Result := endRead s 0#32

end Sys2Proof.Machine
end

