-- ==== Sys2Proof/Machine/RegisterWrites.lean ====
section
/-! DEFINITION. The writes of the control, status and configuration registers (40_register_access.md R101 to R129). -/

namespace Sys2Proof.Machine

/-- WR ID: read-only, refused (R101). -/
def execWrId (_wdata : Word) (s : State) : Result := refuseBadReg s 0x000#12

/-- WR STATUS: read-only, refused (R105). -/
def execWrStatus (_wdata : Word) (s : State) : Result := refuseBadReg s 0x008#12

/-- WR ERR: read-only, refused; writing 0 does not clear ERR (R107). -/
def execWrErr (_wdata : Word) (s : State) : Result := refuseBadReg s 0x00C#12

/-- WR INT_STATUS: WDATA[0] = 1 clears DONE; not busy-guarded (R109). -/
def execWrIntStatus (wdata : Word) (s : State) : Result :=
  endWrite (if operandDoneClear wdata then { s with done := false } else s)

/-- WR INT_ENABLE: not busy-guarded (R111). -/
def execWrIntEnable (wdata : Word) (s : State) : Result :=
  endWrite { s with doneIe := operandDoneIe wdata, errIe := operandErrIe wdata }

/-- WR CFG: a reserved FMT, checked first, or a reserved MODE refuses the whole write (R112). -/
def execWrCfg (wdata : Word) (s : State) : Result :=
  guardWrite s 0x018#12 <|
    match formatOfCode (operandFmt wdata), modeOfCode (operandMode wdata) with
    | none, _ => refuseWrite s .cfgFormat ((operandFmt wdata).zeroExtend 16)
    | some _, none => refuseWrite s .cfgMode ((operandMode wdata).zeroExtend 16)
    | some f, some m => endWrite { s with cfg := ⟨f, m, operandAlignLog2 wdata⟩ }

/-- WR WIDTH: WDATA[31:16] is dropped (R115). -/
def execWrWidth (wdata : Word) (s : State) : Result :=
  guardWrite s 0x01C#12 (endWrite { s with width := operandDim wdata })

/-- WR HEIGHT: WDATA[31:16] is dropped (R117). -/
def execWrHeight (wdata : Word) (s : State) : Result :=
  guardWrite s 0x020#12 (endWrite { s with height := operandDim wdata })

/-- WR SRC_BASE (R119). -/
def execWrSrcBase (wdata : Word) (s : State) : Result :=
  guardWrite s 0x024#12 (endWrite { s with srcBase := wdata })

/-- WR SRC_STRIDE (R121). -/
def execWrSrcStride (wdata : Word) (s : State) : Result :=
  guardWrite s 0x028#12 (endWrite { s with srcStride := wdata })

/-- WR DST_BASE (R123). -/
def execWrDstBase (wdata : Word) (s : State) : Result :=
  guardWrite s 0x02C#12 (endWrite { s with dstBase := wdata })

/-- WR DST_STRIDE (R125). -/
def execWrDstStride (wdata : Word) (s : State) : Result :=
  guardWrite s 0x030#12 (endWrite { s with dstStride := wdata })

/-- WR LAYOUT: read-only, refused (R129). -/
def execWrLayout (_wdata : Word) (s : State) : Result := refuseBadReg s 0x044#12

/-- WR unmapped: refused, not busy-guarded (R128). -/
def execWrUnmapped (off : Offset) (_wdata : Word) (s : State) : Result := refuseBadReg s off

end Sys2Proof.Machine
end

