-- ==== Sys2Proof/Machine/Dispatch.lean ====
section
/-! DEFINITION. What each instruction does: one arm per constructor of Instr, one direct call of its meaning. -/

namespace Sys2Proof.Machine

def exec (i : Instr) (s : State) : Host.Outcome State Fault Refusal :=
  match i with
  | .rsvRefusedB46 we rsvLow off wdata => Sys2Proof.Machine.execRsvRefusedB46 we rsvLow off wdata s
  | .rsvRefusedB45 we rsvLow off wdata => Sys2Proof.Machine.execRsvRefusedB45 we rsvLow off wdata s
  | .rsvRefusedB44 we off wdata => Sys2Proof.Machine.execRsvRefusedB44 we off wdata s
  | .rdId => Sys2Proof.Machine.execRdId s
  | .rdCmd => Sys2Proof.Machine.execRdCmd s
  | .rdStatus => Sys2Proof.Machine.execRdStatus s
  | .rdErr => Sys2Proof.Machine.execRdErr s
  | .rdIntStatus => Sys2Proof.Machine.execRdIntStatus s
  | .rdIntEnable => Sys2Proof.Machine.execRdIntEnable s
  | .rdCfg => Sys2Proof.Machine.execRdCfg s
  | .rdWidth => Sys2Proof.Machine.execRdWidth s
  | .rdHeight => Sys2Proof.Machine.execRdHeight s
  | .rdSrcBase => Sys2Proof.Machine.execRdSrcBase s
  | .rdSrcStride => Sys2Proof.Machine.execRdSrcStride s
  | .rdDstBase => Sys2Proof.Machine.execRdDstBase s
  | .rdDstStride => Sys2Proof.Machine.execRdDstStride s
  | .rdClutIndex => Sys2Proof.Machine.execRdClutIndex s
  | .rdClutData => Sys2Proof.Machine.execRdClutData s
  | .rdCubeIndex => Sys2Proof.Machine.execRdCubeIndex s
  | .rdCubeData => Sys2Proof.Machine.execRdCubeData s
  | .rdLayout => Sys2Proof.Machine.execRdLayout s
  | .wrId wdata => Sys2Proof.Machine.execWrId wdata s
  | .wrStatus wdata => Sys2Proof.Machine.execWrStatus wdata s
  | .wrErr wdata => Sys2Proof.Machine.execWrErr wdata s
  | .wrIntStatus wdata => Sys2Proof.Machine.execWrIntStatus wdata s
  | .wrIntEnable wdata => Sys2Proof.Machine.execWrIntEnable wdata s
  | .wrCfg wdata => Sys2Proof.Machine.execWrCfg wdata s
  | .wrWidth wdata => Sys2Proof.Machine.execWrWidth wdata s
  | .wrHeight wdata => Sys2Proof.Machine.execWrHeight wdata s
  | .wrSrcBase wdata => Sys2Proof.Machine.execWrSrcBase wdata s
  | .wrSrcStride wdata => Sys2Proof.Machine.execWrSrcStride wdata s
  | .wrDstBase wdata => Sys2Proof.Machine.execWrDstBase wdata s
  | .wrDstStride wdata => Sys2Proof.Machine.execWrDstStride wdata s
  | .wrClutIndex wdata => Sys2Proof.Machine.execWrClutIndex wdata s
  | .wrClutData wdata => Sys2Proof.Machine.execWrClutData wdata s
  | .wrCubeIndex wdata => Sys2Proof.Machine.execWrCubeIndex wdata s
  | .wrCubeData wdata => Sys2Proof.Machine.execWrCubeData wdata s
  | .wrLayout wdata => Sys2Proof.Machine.execWrLayout wdata s
  | .cmdNop => Sys2Proof.Machine.execCmdNop s
  | .cmdStart => Sys2Proof.Machine.execCmdStart s
  | .cmdClearErr => Sys2Proof.Machine.execCmdClearErr s
  | .cmdCubeInvalidate => Sys2Proof.Machine.execCmdCubeInvalidate s
  | .cmdCubeCommit => Sys2Proof.Machine.execCmdCubeCommit s
  | .cmdReserved wdata => Sys2Proof.Machine.execCmdReserved wdata s
  | .rdUnmapped off => Sys2Proof.Machine.execRdUnmapped off s
  | .wrUnmapped off wdata => Sys2Proof.Machine.execWrUnmapped off wdata s

end Sys2Proof.Machine
end

