-- ==== Sys2Proof/Machine/PixelMux.lean ====
section
/-! DEFINITION. The parallel pixel multiplexer and LUT lookup (44_pixel_mux.md), and the engine step that is made of one
pixel step and the cursor's advance (43_pixel_iterator.md R174). -/

namespace Sys2Proof.Machine

/-- The R, G and B lanes of one pixel (R192). -/
structure Rgb where
  r : Byte
  g : Byte
  b : Byte
  deriving DecidableEq, Repr

/-- `select(p, f)`: the three channel bytes of the pixel at byte address `p` (R190); none where the platform does not
admit one of the reads (R82). -/
def selectPixel (s : State) (p : Nat) : Option Rgb :=
  let l := layoutOf s.cfg.fmt
  match engineRead s (p + l.rOff), engineRead s (p + l.gOff), engineRead s (p + l.bOff) with
  | some r, some g, some b => some ⟨r, g, b⟩
  | _, _, _ => none

/-- `copy4`: the fourth byte is copied for a step-4 format, when the job is not in place (R191, R198). -/
def copiesFourth (s : State) : Bool := (layoutOf s.cfg.fmt).has4 && !s.inplace

/-- The CUBE key of a triple: `{r[7:0], g[7:0], b[7:0]}` (R195). -/
def cubeKey (p : Rgb) : Key := p.r ++ p.g ++ p.b

/-- The output lanes of a CUBE entry: R' in [23:16], G' in [15:8], B' in [7:0] (R44, R196). -/
def cubeLanes (e : BitVec 24) : Rgb := ⟨e.extractLsb' 16 8, e.extractLsb' 8 8, e.extractLsb' 0 8⟩

/-- CLUT mode: each lane looks up its own byte in the one table (R193); none where an entry is unwritten (R199). -/
def remapClut (l : Lut 8) (p : Rgb) : Option Rgb :=
  match l.entry p.r.toNat, l.entry p.g.toNat, l.entry p.b.toNat with
  | some r, some g, some b => some ⟨r, g, b⟩
  | _, _, _ => none

/-- CUBE mode: one lookup of the packed key, with no interpolation (R194, R196); none where the entry is unwritten
(R199). -/
def remapCube (l : Lut 24) (p : Rgb) : Option Rgb := (l.entry (cubeKey p).toNat).map cubeLanes

/-- `remap(CFG.MODE, r, g, b)` (R193, R196). -/
def remap (s : State) (p : Rgb) : Option Rgb :=
  match s.cfg.mode with
  | .clut => remapClut s.clut p
  | .cube => remapCube s.cube p

/-- The byte packer: the outputs go to the destination pixel at `d`, at the offsets they were read from (R197); none
where the platform does not admit one of the writes (R82). -/
def packPixel (s : State) (d : Nat) (p : Rgb) : Option State :=
  let l := layoutOf s.cfg.fmt
  (engineWrite s (d + l.rOff) p.r).bind fun s1 =>
  (engineWrite s1 (d + l.gOff) p.g).bind fun s2 =>
  engineWrite s2 (d + l.bOff) p.b

/-- The read of the source pixel's fourth byte at `src`, where it is copied (R198): `some none` where it is not. -/
def readFourth (s : State) (src : Nat) : Option (Option Byte) :=
  if copiesFourth s then (engineRead s (src + (layoutOf s.cfg.fmt).aOff)).map some else some none

/-- The write of the destination pixel's fourth byte at `d`, where one was read (R198). -/
def writeFourth (s : State) (d : Nat) (a : Option Byte) : Option State :=
  match a with
  | some v => engineWrite s (d + (layoutOf s.cfg.fmt).aOff) v
  | none => some s

/-- `pixel_step()` of the pixel at the cursor (R191): every read, then the remap, then every write. A remap that finds
an unwritten entry is `fault(LUT_UNWRITTEN)` (R199), and an access that is not admitted is `fault(MEM_NOT_ADMITTED)`
(R82). -/
def pixelStep (s : State) : Result :=
  let src := srcPx s s.curX.toNat s.curY.toNat
  let dst := dstPx s s.curX.toNat s.curY.toNat
  match selectPixel s src, readFourth s src with
  | some p, some a =>
    match remap s p with
    | some q =>
      match (packPixel s dst q).bind fun t => writeFourth t dst a with
      | some t => .next t
      | none => .fault .memNotAdmitted
    | none => .fault .lutUnwritten
  | _, _ => .fault .memNotAdmitted

/-- One engine step: it processes the pixel at the cursor, then advances the cursor (R174). -/
def engineStep (s : State) : Result :=
  match pixelStep s with
  | .next t => .next (advanceCursor t)
  | .fault r => .fault r
  | .refused r => .refused r

/-- The engine's turn: it has a step exactly when BUSY = 1 (R174), and touches nothing otherwise (R253). -/
def engineTurn (s : State) : Result := if s.busy then engineStep s else .next s

end Sys2Proof.Machine
end

