-- ==== Sys2Proof/Machine/Events.lean ====
section
/-! DEFINITION. The events that are not host transactions: reset (70_reset_and_hazards.md R260 to R264), the host's
own accesses to pixel memory while a job may be running (20_memory.md R74, R75), its look at the irq line, and how
the next event is taken (R276). -/

namespace Sys2Proof.Machine

/-! ### Reset -/

/-- A reset, in any state: every piece of the block's state takes its reset value (R260). Pixel memory is left alone
(R261, R264), and so are the platform's admission of accesses, the events to come, and the record of the writes that the
host has not yet seen ordered, which only a completion read ends (R74, log entry 3). -/
def resetEvent (s : State) : State :=
  { State.reset with
    mem := s.mem, holes := s.holes, stale := s.stale, races := s.races, inbox := s.inbox }

/-! ### Host accesses to pixel memory -/

/-- The value that an offset within a pixel gets from the job, for the pixel at column `x` and row `y`: the remapped
channel there, or the copied fourth byte (R182). None where the job writes no byte there, or would fault. -/
def jobByte (s : State) (x y off : Nat) : Option Byte :=
  let l := layoutOf s.cfg.fmt
  let p := srcPx s x y
  if copiesFourth s && off == l.aOff then some (s.mem.read (p + l.aOff))
  else (remap s ⟨s.mem.read (p + l.rOff), s.mem.read (p + l.gOff), s.mem.read (p + l.bOff)⟩).bind fun q =>
    if off = l.rOff then some q.r
    else if off = l.gOff then some q.g
    else if off = l.bOff then some q.b
    else none

/-- Whether the pixel at column `x` and row `y` is still to be processed (R46, R178). -/
def pixelPending (s : State) (x y : Nat) : Bool :=
  decide (x < s.width.toNat) && decide (y < s.height.toNat) &&
    (decide (s.curY.toNat < y) || (y == s.curY.toNat && decide (s.curX.toNat ≤ x)))

/-- The byte that the running job is still to write at an address, if it is to write one there (R175, R182). An
implementation may already have written it (R181). -/
def pendingByte (s : State) (a : Nat) : Option Byte :=
  let rel := a - s.dstBase.toNat
  let col := rel % s.dstStride.toNat
  let x := col / stepOf s.cfg.fmt
  let y := rel / s.dstStride.toNat
  if s.busy && decide (s.dstBase.toNat ≤ a) && pixelPending s x y then
    jobByte s x y (col % stepOf s.cfg.fmt)
  else none

/-- The engine's writes of a byte that no completion read has ordered yet, the latest first, each with the byte that
stood there before it (R74). -/
def unorderedAt (s : State) (a : Nat) : List Host.Cell := s.stale.filter fun c => c.1 == a

/-- The other bytes that a host read of an address may return while the job's writes are not yet ordered before it: the
old values that it has overwritten, and the new value that it is still to write (R74). -/
def raceCandidates (s : State) (a : Nat) : List Byte :=
  ((unorderedAt s a).map fun c => c.2) ++ (pendingByte s a).toList

/-- A host read of a byte of pixel memory. Where there is no race it returns the byte; where there is one, "a host
read of a byte the job writes returns either the old or the new value" (R74), and which one is a free value
(log entry 3). -/
def hostReadByte (s : State) (addr : Word) : State :=
  let a := addr.toNat
  let now := s.mem.read a
  match raceCandidates s a with
  | [] => { s with reply := .byte now }
  | c :: rest =>
    let all := now :: c :: rest
    { s with reply := .byte (all.getD (Config.raceChoice s.races % all.length) now), races := s.races + 1 }

/-- A host write of a byte that falls in time before the latest `n` of the engine's unordered writes of it, `late`. With
`n = 0` it is the last write and the byte holds it. Else the byte keeps what the engine wrote last, and what the host
wrote is the byte that the earliest of those `n` writes has overwritten. -/
def placeHostWrite (s : State) (a : Nat) (v : Byte) (late : List Host.Cell) (n : Nat) : State :=
  let others := s.stale.filter fun c => c.1 != a
  match n with
  | 0 => { s with mem := s.mem.write a v, stale := others }
  | k + 1 => { s with stale := late.take k ++ (a, v) :: others }

/-- A host write lands. Where writes of the byte by a job are not yet ordered before it, R74 leaves the order of the
writes open, and where the host's falls among them is a free value (log entry 3). -/
def landHostWrite (s : State) (a : Nat) (v : Byte) : State :=
  match unorderedAt s a with
  | [] => { s with mem := s.mem.write a v }
  | c :: rest =>
    { placeHostWrite s a v (c :: rest) (Config.raceChoice s.races % (rest.length + 2)) with races := s.races + 1 }

/-- A host write of a byte of pixel memory. "The model gives the host no move that writes those extents while
BUSY = 1" (R75). -/
def hostWriteByte (s : State) (addr : Word) (v : Byte) : Result :=
  if s.busy && inExtents s addr.toNat then .refused .hostWriteDuringJob else endWrite (landHostWrite s addr.toNat v)

/-! ### The irq line as the host sees it -/

/-- What a step does to the model's record of a rise of irq for DONE: where DONE begins to drive the line, it is a rise
for DONE exactly where nothing drove the line before and ERR does not drive it after (R74, R241; log entry 20). While
DONE goes on driving the line it stays high and cannot rise. -/
def settleIrq (before after : State) : State :=
  if doneDrives after && !doneDrives before then { after with irqRose := !irq before && !errDrives after } else after

/-- The outcome of an event, with the record of the irq line brought up to date. -/
def settle (before : State) (r : Result) : Result :=
  match r with
  | .next t => .next (settleIrq before t)
  | .fault e => .fault e
  | .refused e => .refused e

/-- The host looks at irq. Where it sees that irq rose for DONE, every write of the completed job is ordered before
every later host access (R74). Where an error already held the line high there was no such rise, and the look orders
nothing. -/
def hostSeesIrq (s : State) : State := if doneDrives s && s.irqRose then seeCompletion s else s

/-! ### Taking the next event -/

/-- The next event and the state without it. With no event left the engine goes on while BUSY = 1 (R180, R276:
"an engine step that stays enabled is eventually taken"), and an idle block keeps all its state (R253). -/
def takeEvent (s : State) : Event × State :=
  match s.inbox with
  | [] => (.engine, s)
  | e :: rest => (e, { s with inbox := rest })

end Sys2Proof.Machine
end

