-- ==== Sys2Proof/Machine/Step.lean ====
section
/-! DEFINITION. One step of the machine: the next event in its order (70_reset_and_hazards.md R276), taken whole
(20_memory.md R70). -/

namespace Sys2Proof.Machine

/-- What one event does. A host transaction is decoded and executed; the others are Machine/Events.lean's. -/
def runEvent (e : Event) (s : State) : Host.Outcome State Fault Refusal :=
  match e with
  | .txn htw => exec (decode htw) s
  | .engine => engineTurn s
  | .reset => .next (resetEvent s)
  | .hostWrite addr v => hostWriteByte s addr v
  | .hostRead addr => .next (hostReadByte s addr)
  | .hostSeesIrq => .next (hostSeesIrq s)
  | .platform holes => .next { s with holes := holes }

/-- One step: the next event is taken from its place in the order and run, and the record of the irq line is brought up
to date. -/
def step (s : State) : Host.Outcome State Fault Refusal :=
  let (e, rest) := takeEvent s
  settle rest (runEvent e rest)

/-- The state with one more host transaction, the next event of all: the HTW that the host puts on the bus. -/
def State.withFetchWord (s : State) (nbits w : Nat) : State :=
  { s with inbox := .txn (BitVec.ofNat 48 (w % 2 ^ nbits)) :: s.inbox }

end Sys2Proof.Machine
end

