-- ==== Sys2Proof/Machine/HostReference.lean ====
section
/-! DEFINITION. The host reference functions (45_host_reference.md R210 to R221): the darken and gamma table builders
and the luminance sampler. They are not hardware ("the block computes none of them", R5): no step of the machine calls
them. They say which tables a host loads. Exact arithmetic throughout (R220): a darken amount is an exact rational
(log entry 11), and the gamma formulas are stated over the real numbers. -/

namespace Sys2Proof.Machine

/-! ### Darken (R211 to R214) -/

/-- The darken `type` parameter (R211). -/
inductive DarkenType where
  | relative | subtractive
  deriving DecidableEq, Repr

/-- The darken parameters as the host is given them, checked or not: codes for `type` and `adaptive`, and the amount
`value = num / den` (R211, log entry 11). -/
structure DarkenOptions where
  typeCode : Int
  adaptiveCode : Int
  num : Int
  den : Nat
  deriving DecidableEq, Repr

/-- The darken parameters that have passed the host's check: `value` is `num / den` (R211, log entry 11). -/
structure DarkenParams where
  kind : DarkenType
  /-- Only meaningful in SUBTRACTIVE mode (R211). -/
  adaptive : Bool
  num : Nat
  den : Nat
  deriving DecidableEq, Repr

/-- The type of a code: RELATIVE = 0, SUBTRACTIVE = 1 (R211). -/
def darkenTypeOfCode (c : Int) : Option DarkenType :=
  if c = 0 then some .relative else if c = 1 then some .subtractive else none

/-- The value of the `adaptive` code, 0 or 1 (R211). -/
def darkenAdaptiveOfCode (c : Int) : Option Bool := if c = 0 then some false else if c = 1 then some true else none

/-- The host's check: a value outside the sets of R211 is its ConfigurationError, here none. -/
def darkenCheck (o : DarkenOptions) : Option DarkenParams :=
  match darkenTypeOfCode o.typeCode, darkenAdaptiveOfCode o.adaptiveCode with
  | some kind, some adaptive =>
    if 0 < o.den ∧ 0 ≤ o.num ∧ o.num ≤ 255 * (o.den : Int) then some ⟨kind, adaptive, o.num.toNat, o.den⟩ else none
  | _, _ => none

/-- `rnd_tz(n / d)`: the nearest integer, ties toward zero, `ceil(n/d - 1/2)` (R212). -/
def roundTiesToZero (n d : Nat) : Nat := (2 * n + d - 1) / (2 * d)

/-- The numerator of the amount `d(i)` over `darkenDen` (R213). -/
def darkenNum (p : DarkenParams) (i : Nat) : Nat :=
  match p.kind, p.adaptive with
  | .relative, _ => i * p.num
  | .subtractive, false => p.num
  | .subtractive, true => p.num * i

/-- The denominator of the amount `d(i)` (R213). -/
def darkenDen (p : DarkenParams) : Nat :=
  match p.kind, p.adaptive with
  | .relative, _ => 100 * p.den
  | .subtractive, false => p.den
  | .subtractive, true => 255 * p.den

/-- `darken[i] = max(0, i - rnd_tz(d(i)))` (R213): the subtraction of natural numbers stops at 0. -/
def darkenEntry (p : DarkenParams) (i : Nat) : Nat := i - roundTiesToZero (darkenNum p i) (darkenDen p)

/-- The darken table that a host with valid parameters loads; none for a ConfigurationError (R211, R213). -/
def darkenTable (o : DarkenOptions) : Option (List Nat) :=
  (darkenCheck o).map fun p => (List.range Config.clutEntries).map (darkenEntry p)

/-- `identity[i] = i` (R221). -/
def identityTable : List Nat := List.range Config.clutEntries

/-! ### The luminance sampler (R215, R216, R218) -/

/-- The multiples of 20 below a dimension: `ceil(n/20)` of them (R215). -/
def sampleCoords (n : Nat) : List Nat := (List.range ((n + 19) / 20)).map (20 * ·)

/-- The sampled pixels of a `w × h` frame (R215). -/
def samplePoints (w h : Nat) : List (Nat × Nat) :=
  (sampleCoords h).flatMap fun y => (sampleCoords w).map fun x => (x, y)

/-- A frame in pixel memory as the host reads it: its format, base, stride and dimensions (R215). -/
structure Frame where
  fmt : PixelFormat
  base : Nat
  stride : Nat
  width : Nat
  height : Nat
  deriving DecidableEq, Repr

/-- The channels of the pixel at column `x` and row `y`, read by the layout of the frame's format (R215). -/
def frameRgb (m : Memory) (f : Frame) (x y : Nat) : Rgb :=
  let p := f.base + y * f.stride + x * stepOf f.fmt
  let l := layoutOf f.fmt
  ⟨m.read (p + l.rOff), m.read (p + l.gOff), m.read (p + l.bOff)⟩

/-- The samples of a frame, read while no job is running (R215). -/
def frameSamples (m : Memory) (f : Frame) : List Rgb :=
  (samplePoints f.width f.height).map fun at_ => frameRgb m f at_.1 at_.2

/-- 1000 times the square of a sample's brightness, with the source's weights 0.241, 0.691 and 0.068 (R216). -/
def lumSquared1000 (p : Rgb) : Nat := 241 * p.r.toNat ^ 2 + 691 * p.g.toNat ^ 2 + 68 * p.b.toNat ^ 2

/-- `lum(R, G, B)` is `v` (R216). -/
def IsLum (p : Rgb) (v : ℝ) : Prop := v = Real.sqrt ((lumSquared1000 p : ℝ) / 1000)

/-- `avg` is the mean brightness of the samples (R216); there is none where there is no sample (R218). -/
def IsAverage (samples : List Rgb) (avg : ℝ) : Prop :=
  samples ≠ [] ∧ ∃ lums : List ℝ, List.Forall₂ IsLum samples lums ∧ avg * samples.length = lums.sum

/-! ### Gamma (R217, R219) -/

/-- `gamma = 0.072 · avg · 13.0 / 255.0 + 1.0` (R217). -/
def IsGammaExponent (avg gamma : ℝ) : Prop := gamma = 0.072 * avg * 13.0 / 255.0 + 1.0

/-- `gamma_lut[i] = rnd_ha(255 · (i/255)^gamma)`, with `rnd_ha(x) = floor(x + 1/2)` (R219). -/
def IsGammaEntry (gamma : ℝ) (i v : Nat) : Prop := v = ⌊255 * ((i : ℝ) / 255) ^ gamma + 1 / 2⌋₊

/-- The table that the host builds for a frame of mean brightness `avg` (R219). -/
def IsGammaTable (avg : ℝ) (t : List Nat) : Prop :=
  ∃ gamma, IsGammaExponent avg gamma ∧ List.Forall₂ (IsGammaEntry gamma) (List.range Config.clutEntries) t

/-- What the host builds for a frame: the table of its mean brightness (R216, R217, R219), or, where there is no sample,
none, when it must "skip gamma application" (R218). -/
def IsFrameGammaTable (m : Memory) (f : Frame) (table : Option (List Nat)) : Prop :=
  match table with
  | none => frameSamples m f = []
  | some t => ∃ avg, IsAverage (frameSamples m f) avg ∧ IsGammaTable avg t

end Sys2Proof.Machine
end

