-- ==== Sys2Proof/Machine/HostScript.lean ====
section
/-! DEFINITION. Host scripts, "the assembly language of this spec" (30_encoding.md R96, R97), and the host sequences
written in it (42_lut_port.md R158, R159; 45_host_reference.md R222; 70_reset_and_hazards.md R265). A script is an
input of the machine: its lines are the host transactions of State.inbox. -/

namespace Sys2Proof.Machine

/-- The offset that a register operand names (R96). -/
def refOffset : RegRef → Offset
  | .named r => regOffset r
  | .raw off => off

/-- The HTW of one script line (R96). -/
def encodeLine : ScriptLine → Htw
  | .rd r => encodeRead (refOffset r)
  | .wr r v => encodeWrite (refOffset r) v

/-- A script as the events that the machine takes, in the order in which the host issues them (R76). -/
def scriptEvents (lines : List ScriptLine) : List Event := lines.map fun l => .txn (encodeLine l)

/-- `WR <reg>, <value>` with a register's name. -/
def wr (r : Reg) (v : Word) : ScriptLine := .wr (.named r) v

/-- The five commands by name (R90, R97). -/
inductive Command where
  | nop | start | clearErr | cubeInvalidate | cubeCommit
  deriving DecidableEq, Repr

/-- The command word (R90). -/
def commandWord : Command → Word
  | .nop => 0x00000000#32
  | .start => 0x00000001#32
  | .clearErr => 0x00000002#32
  | .cubeInvalidate => 0x00000003#32
  | .cubeCommit => 0x00000004#32

/-- The pseudo-instructions of R97, but for the loops POLL and WAIT_IDLE, which are the host's control flow. -/
inductive Pseudo where
  | cmd (c : Command)
  | cfgw (fmt : PixelFormat) (mode : LutMode) (alignLog2 : BitVec 3)
  | geom (w h : Word)
  | src (base stride : Word)
  | dst (base stride : Word)
  | clutLoad (values : List Word)
  | cubePut (key rgb : Word)
  deriving DecidableEq, Repr

/-- `(align_log2 << 8) | (mode << 4) | fmt` (R97). -/
def cfgwWord (fmt : PixelFormat) (mode : LutMode) (alignLog2 : BitVec 3) : Word :=
  (alignLog2.zeroExtend 32 <<< 8) ||| ((modeCode mode).zeroExtend 32 <<< 4) ||| (formatCode fmt).zeroExtend 32

/-- The expansion of each pseudo-instruction (R97). -/
def expand : Pseudo → List ScriptLine
  | .cmd c => [wr .cmd (commandWord c)]
  | .cfgw f m a => [wr .cfg (cfgwWord f m a)]
  | .geom w h => [wr .width w, wr .height h]
  | .src base stride => [wr .srcBase base, wr .srcStride stride]
  | .dst base stride => [wr .dstBase base, wr .dstStride stride]
  | .clutLoad values => wr .clutIndex 0#32 :: values.map (wr .clutData)
  | .cubePut key rgb => [wr .cubeIndex key, wr .cubeData rgb]

/-- The read that POLL repeats, of a register or a raw offset: "the block sees only the reads" (R96, R97). -/
def pollLine (r : RegRef) : ScriptLine := .rd r

/-- Whether POLL reads again: `(reply & mask) != value` (R97). -/
def pollAgain (mask value reply : Word) : Bool := reply &&& mask != value

/-- What a host script does next: one transaction, or a POLL, whose `go to` is the host's own (R97). -/
inductive HostAction where
  | line (l : ScriptLine)
  | poll (r : RegRef) (mask value : Word)
  deriving DecidableEq, Repr

/-- `WAIT_IDLE`, which is `POLL STATUS, 0x00000001, 0x00000000` (R97). -/
def waitIdle : HostAction := .poll (.named .status) 0x00000001#32 0x00000000#32

/-- Whether WAIT_IDLE reads STATUS again (R97). -/
def waitIdleAgain (reply : Word) : Bool := pollAgain 0x00000001#32 0x00000000#32 reply

/-- The replies with which a POLL ends: it reads until the first reply that passes its test (R97). -/
def pollEndsWith (mask value : Word) : List Word → Bool
  | [] => false
  | [last] => !pollAgain mask value last
  | reply :: rest => pollAgain mask value reply && pollEndsWith mask value rest

/-- The transactions that the block sees of a script whose POLLs make the given numbers of reads, one number for each
POLL in order (R97, R276: a host that polls sees BUSY = 1 "for an unbounded but finite number of polls"). -/
def unroll : List HostAction → List Nat → List ScriptLine
  | [], _ => []
  | .line l :: rest, reads => l :: unroll rest reads
  | .poll r _ _ :: rest, n :: reads => List.replicate n (pollLine r) ++ unroll rest reads
  | .poll r _ _ :: rest, [] => pollLine r :: unroll rest []

/-- Straight-line transactions as host actions. -/
def linesAsActions (lines : List ScriptLine) : List HostAction := lines.map .line

/-! ### Host sequences -/

/-- A full CLUT load (R158). -/
def loadClut (t : List Nat) : List ScriptLine := expand (.clutLoad (t.map fun v => BitVec.ofNat 32 v))

/-- A full CUBE load and its commit (R159). -/
def loadCube (entries : List (BitVec 24)) : List ScriptLine :=
  wr .cubeIndex 0#32 :: (entries.map fun e => wr .cubeData (e.zeroExtend 32)) ++ expand (.cmd .cubeCommit)

/-- What the host writes for one frame (R222: "write the geometry, START"). -/
structure FrameJob where
  width : Word
  height : Word
  srcBase : Word
  srcStride : Word
  dstBase : Word
  dstStride : Word
  deriving DecidableEq, Repr

/-- The geometry of one frame, and START (R222, R265 steps 5 and 6). -/
def frameLines (f : FrameJob) : List ScriptLine :=
  expand (.geom f.width f.height) ++ expand (.src f.srcBase f.srcStride) ++ expand (.dst f.dstBase f.dstStride) ++
    expand (.cmd .start)

/-- One frame: the geometry, START, and the wait for completion (R222). -/
def frameActions (f : FrameJob) : List HostAction := linesAsActions (frameLines f) ++ [waitIdle]

/-- Darken, at setup: the checked and built table is loaded, and CFG written with MODE = CLUT; none where the
parameters are refused, when "the host then loads no table and starts no job" (R211, R222). -/
def darkenSetup (o : DarkenOptions) (f : PixelFormat) (alignLog2 : BitVec 3) : Option (List ScriptLine) :=
  (darkenTable o).map fun t => loadClut t ++ expand (.cfgw f .clut alignLog2)

/-- Darken, the setup and then one frame after another (R222); none where the parameters are refused. -/
def darkenActions (o : DarkenOptions) (f : PixelFormat) (alignLog2 : BitVec 3) (frames : List FrameJob) :
    Option (List HostAction) :=
  (darkenSetup o f alignLog2).map fun setup => linesAsActions setup ++ frames.flatMap frameActions

/-- The frame that the host samples for gamma is the job's source frame (R215, R222), with the dimensions that WIDTH and
HEIGHT take (R115, R117). -/
def sourceFrame (f : PixelFormat) (j : FrameJob) : Frame :=
  ⟨f, j.srcBase.toNat, j.srcStride.toNat, (operandDim j.width).toNat, (operandDim j.height).toNat⟩

/-- Gamma, one frame with the table built for it: load it, write CFG with MODE = CLUT and the geometry, START, and the
wait for completion (R222). -/
def gammaFrame (t : List Nat) (f : PixelFormat) (alignLog2 : BitVec 3) (j : FrameJob) : List HostAction :=
  linesAsActions (loadClut t ++ expand (.cfgw f .clut alignLog2)) ++ frameActions j

/-- Gamma, per frame, from the memory in which the host samples it (R222): the frame's own table is built and loaded
and the frame started; or, for a frame without samples, no table is built or loaded, and the host does nothing or, "if it
still issues START", issues that of an empty job (R218). -/
def IsGammaActions (m : Memory) (f : PixelFormat) (alignLog2 : BitVec 3) (j : FrameJob)
    (actions : List HostAction) : Prop :=
  ∃ table, IsFrameGammaTable m (sourceFrame f j) table ∧
    match table with
    | some t => actions = gammaFrame t f alignLog2 j
    | none => actions = [] ∨ actions = linesAsActions (expand (.cfgw f .clut alignLog2)) ++ frameActions j

/-- EECM, per frame: CFG with MODE = CUBE, the geometry, START (R222). -/
def eecmFrame (f : PixelFormat) (alignLog2 : BitVec 3) (j : FrameJob) : List ScriptLine :=
  expand (.cfgw f .cube alignLog2) ++ frameLines j

/-- EECM: once the whole CUBE and its commit, and then one frame after another, each with the wait for completion
(R222). -/
def eecmActions (entries : List (BitVec 24)) (f : PixelFormat) (alignLog2 : BitVec 3) (frames : List FrameJob) :
    List HostAction :=
  linesAsActions (loadCube entries) ++ frames.flatMap fun j => linesAsActions (eecmFrame f alignLog2 j) ++ [waitIdle]

/-- Two transforms of one frame are two jobs: the second job's source is the first job's destination (R223). The host
issues the second after the first completes (waitIdle stands between them). -/
def Chained (first second : FrameJob) : Prop :=
  second.srcBase = first.dstBase ∧ second.srcStride = first.dstStride ∧ second.width = first.width ∧
    second.height = first.height

/-- What the host chooses for the boot sequence (R265). -/
structure BootPlan where
  /-- Step 1 is optional. -/
  readId : Bool
  /-- Step 2 is optional: "otherwise it polls STATUS". -/
  intEnable : Option Word
  /-- Step 3: all 256 CLUT entries, for a CLUT-mode job. -/
  clut : Option (List Nat)
  /-- Step 4: all 2^24 CUBE entries, for a CUBE-mode job. -/
  cube : Option (List (BitVec 24))
  fmt : PixelFormat
  mode : LutMode
  alignLog2 : BitVec 3
  frame : FrameJob
  deriving DecidableEq, Repr

/-- The boot sequence up to the read of ERR that shows whether START was accepted (R265 steps 1 to 6, R270). Step 7 is
the wait for completion, WAIT_IDLE or the DONE interrupt (R268). -/
def bootLines (b : BootPlan) : List ScriptLine :=
  (if b.readId then [.rd (.named .id)] else []) ++ (b.intEnable.toList.map (wr .intEnable)) ++
    (b.clut.toList.flatMap loadClut) ++ (b.cube.toList.flatMap loadCube) ++ expand (.cfgw b.fmt b.mode b.alignLog2) ++
    frameLines b.frame ++ [.rd (.named .err)]

end Sys2Proof.Machine
end

