-- ==== Sys2Proof/Safety.lean ====
section
/-! DEFINITION. What the claims call a good state, a legal job and the end of a run, in the terms of the spec. -/

namespace Sys2Proof.Safety

open Sys2Proof.Machine

/-- Pixel memory and both LUT RAMs have their canonical form: rising addresses in range (R44, R60). -/
abbrev RamsCanonical (s : State) : Prop :=
  s.mem.wf = true ∧ s.clut.wf Config.clutEntries = true ∧ s.cube.wf Config.cubeEntries = true

/-- With no error recorded, OVF and INFO are 0 (R28: only R233 writes them, and CLEAR_ERR clears all three). -/
abbrev ErrCoherent (s : State) : Prop := s.err.code = .noError → s.err.ovf = false ∧ s.err.info = 0#16

/-- What holds during a job (R25, R46, R165, R173): the frame is not empty and passed every START check, the cursor is
inside it, INPLACE records whether it is in place, a CUBE job has CUBE_READY, and DONE is 0. -/
abbrev JobLegal (s : State) : Prop :=
  emptyFrame s = false ∧ geometryError s = none ∧
    s.curX.toNat < s.width.toNat ∧ s.curY.toNat < s.height.toNat ∧
    s.inplace = isInplace s ∧ (s.cfg.mode = .cube → s.cubeReady = true) ∧ s.done = false

/-- The invariant of the machine. -/
abbrev Invariant (s : State) : Prop := RamsCanonical s ∧ ErrCoherent s ∧ (s.busy = true → JobLegal s)

/-- The end of a run of a host script: the last transaction has been issued and BUSY = 0 (R277). -/
abbrev Finished (s : State) : Prop := s.inbox = [] ∧ s.busy = false

/-- The source triple of the pixel at column `x` and row `y`, as memory stands (R190). -/
def sourceRgb (s : State) (x y : Nat) : Rgb :=
  let l := layoutOf s.cfg.fmt
  let p := srcPx s x y
  ⟨s.mem.read (p + l.rOff), s.mem.read (p + l.gOff), s.mem.read (p + l.bOff)⟩

/-- Every pixel of the frame finds its LUT entries written (R199). -/
def LutsCoverFrame (s : State) : Prop :=
  ∀ x y, x < s.width.toNat → y < s.height.toNat → (remap s (sourceRgb s x y)).isSome = true

/-- The platform admits every engine read of the source extent and every engine write of the destination extent
(R82). -/
def ExtentsAdmitted (s : State) : Prop :=
  (∀ a, s.srcBase.toNat ≤ a → a < srcEnd s → admitsRead s a = true) ∧
    (∀ a, s.dstBase.toNat ≤ a → a < dstEnd s → admitsWrite s a = true)

/-- The addresses that the job writes: the channel bytes of every destination pixel, and its fourth byte where that is
copied (R175, R182, R198). -/
def JobWrites (s : State) (a : Nat) : Prop :=
  ∃ x y, x < s.width.toNat ∧ y < s.height.toNat ∧
    (a = dstPx s x y + (layoutOf s.cfg.fmt).rOff ∨ a = dstPx s x y + (layoutOf s.cfg.fmt).gOff ∨
      a = dstPx s x y + (layoutOf s.cfg.fmt).bOff ∨
      (copiesFourth s = true ∧ a = dstPx s x y + (layoutOf s.cfg.fmt).aOff))

/-- A job that START has just accepted (R173). -/
abbrev JobBegins (s : State) : Prop := s.busy = true ∧ JobLegal s ∧ s.curX = 0#16 ∧ s.curY = 0#16

/-- The events of a run that leave the rest of the machine to the job: the engine's steps, and, between them, host
transactions of a bus (R88: RSV = 0), host reads of pixel memory and looks at irq. A reset, a change of what the platform
admits and a host write of pixel memory are not among them. -/
def QuietEvent (e : Event) : Prop :=
  match e with
  | .engine | .hostRead _ | .hostSeesIrq => True
  | .txn w => htwRsv w = 0#3
  | .reset | .hostWrite _ _ | .platform _ => False

/-- How many of the events are the engine's steps. -/
def engineCount (l : List Event) : Nat := l.countP fun e => e == .engine

/-- The next `n` steps of the machine take the running job to its end, and leave `rest` to come: there is no event, and
the engine takes every step (log entry 2); or the next `n` events are quiet, `W*H` of them are the engine's, and the
last of them is. -/
def JobSteps (s : State) (n : Nat) (rest : List Event) : Prop :=
  (s.inbox = [] ∧ rest = [] ∧ n = s.width.toNat * s.height.toNat) ∨
  ∃ l, s.inbox = l ++ rest ∧ (∀ e ∈ l, QuietEvent e) ∧ engineCount l = s.width.toNat * s.height.toNat ∧
    l.getLast? = some .engine ∧ n = l.length

/-- How many of the next `k` steps are the engine's: all of them, where there is no event. -/
def engineSteps (s : State) (k : Nat) : Nat := if s.inbox = [] then k else engineCount (s.inbox.take k)

/-- The memory that the whole job makes of `s`'s (R182, R179, R201, R202): every destination pixel holds the remapped
channels of its source pixel and, for a step-4 format, its source pixel's fourth byte; and every byte that the job does
not write is as it was. -/
def JobResult (s t : State) : Prop :=
  (∀ x y q, x < s.width.toNat → y < s.height.toNat → remap s (sourceRgb s x y) = some q →
    t.mem.read (dstPx s x y + (layoutOf s.cfg.fmt).rOff) = q.r ∧
    t.mem.read (dstPx s x y + (layoutOf s.cfg.fmt).gOff) = q.g ∧
    t.mem.read (dstPx s x y + (layoutOf s.cfg.fmt).bOff) = q.b ∧
    ((layoutOf s.cfg.fmt).step = 4 → t.mem.read (dstPx s x y + (layoutOf s.cfg.fmt).aOff) =
      s.mem.read (srcPx s x y + (layoutOf s.cfg.fmt).aOff))) ∧
  ∀ a, ¬JobWrites s a → t.mem.read a = s.mem.read a

/-- A transaction raises an error in a state, which is to say that it would leave `code` and `info` recorded were ERR
clear (R233). -/
def Raises (i : Instr) (s : State) (code : ErrCode) (info : BitVec 16) : Prop :=
  ∃ u, exec i { s with err := ⟨.noError, false, 0#16⟩ } = .next u ∧ u.err.code = code ∧ u.err.info = info ∧
    code ≠ .noError

/-- All that the engine reads of the state, but for memory (R174 to R198). -/
abbrev SameJob (s t : State) : Prop :=
  t.busy = s.busy ∧ t.cubeReady = s.cubeReady ∧ t.cfg = s.cfg ∧ t.width = s.width ∧ t.height = s.height ∧
    t.srcBase = s.srcBase ∧ t.srcStride = s.srcStride ∧ t.dstBase = s.dstBase ∧ t.dstStride = s.dstStride ∧
    t.clut = s.clut ∧ t.cube = s.cube ∧ t.curX = s.curX ∧ t.curY = s.curY ∧ t.inplace = s.inplace

/-- What R233 makes of the error record when `Error(code, info)` is raised: with CODE = 0 the error is recorded, and
with another CODE only OVF is set. -/
abbrev recordedError (s : State) (code : ErrCode) (info : BitVec 16) : ErrRecord :=
  ⟨if s.err.code = .noError then code else s.err.code, if s.err.code = .noError then s.err.ovf else true,
    if s.err.code = .noError then info else s.err.info⟩

/-- `k` steps of the machine, stopping at the first fault or refusal. -/
def runFor (k : Nat) (s : State) : Result := Sys2Proof.core.run k s

/-- The host script that writes one CLUT data word after another (R153). -/
def clutDataEvents (values : List Word) : List Event := values.map fun v => .txn (encodeWrite (regOffset .clutData) v)

/-- The host script that writes one CUBE data word after another (R157). -/
def cubeDataEvents (values : List Word) : List Event := values.map fun v => .txn (encodeWrite (regOffset .cubeData) v)

end Sys2Proof.Safety
end

