-- ==== Sys2Proof/WellFormed.lean ====
section
/-! DEFINITION. When a term of `Instr` stands for a word of its own row: an unmapped access names an offset that no
register has, and a reserved command is none of the five command words (30_encoding.md R86, R91). -/

namespace Sys2Proof

/-- The offsets at which the register map has a register or window: the word-aligned ones up to LAYOUT (R22). -/
def mappedOffset (off : Offset) : Bool := off.toNat % 4 == 0 && off.toNat ≤ 0x044

/-- A WDATA that is one of the five command words (R90). -/
def isCommandWord (wdata : Word) : Bool := wdata.toNat ≤ 4

/-- The check of each row's operands. Every other operand value is encodable as it stands. -/
def Instr.wf : Instr → Bool
  | .cmdReserved wdata => !isCommandWord wdata
  | .rdUnmapped off => !mappedOffset off
  | .wrUnmapped off _ => !mappedOffset off
  | .rsvRefusedB46 _ _ _ _ | .rsvRefusedB45 _ _ _ _ | .rsvRefusedB44 _ _ _ => true
  | .rdId | .rdCmd | .rdStatus | .rdErr | .rdIntStatus | .rdIntEnable | .rdCfg | .rdWidth | .rdHeight => true
  | .rdSrcBase | .rdSrcStride | .rdDstBase | .rdDstStride => true
  | .rdClutIndex | .rdClutData | .rdCubeIndex | .rdCubeData | .rdLayout => true
  | .wrId _ | .wrStatus _ | .wrErr _ | .wrIntStatus _ | .wrIntEnable _ | .wrCfg _ | .wrWidth _ | .wrHeight _ => true
  | .wrSrcBase _ | .wrSrcStride _ | .wrDstBase _ | .wrDstStride _ => true
  | .wrClutIndex _ | .wrClutData _ | .wrCubeIndex _ | .wrCubeData _ | .wrLayout _ => true
  | .cmdNop | .cmdStart | .cmdClearErr | .cmdCubeInvalidate | .cmdCubeCommit => true

end Sys2Proof
end

