-- ==== Sys2Proof/Certificates/Slice0/Obligations.lean ====
section
/-! DEFINITION. The statements for the provers, each from a rule of the spec. The list of them, with the rule and the
sentence that each formalises, is OBLIGATIONS.json. -/

open Sys2Proof Sys2Proof.Machine Sys2Proof.Safety

/-! ### Encoding -/

/-- R85, R90, R94, R96: no operand bit of a well-formed instruction is lost between its word and its decoding. -/
def Obligations.DecodeOfEncodeIsIdentity : Prop :=
  ∀ i : Instr, i.wf = true → decode (encode i) = i

/-- R87, R93: every word decodes to a well-formed instruction, and encoding that instruction gives the word back, but
for the WDATA of a read, which is ignored and encoded as 0. -/
def Obligations.EncodeOfDecodeIsTheWord : Prop :=
  ∀ w : Htw, (decode w).wf = true ∧
    (htwWe w = true ∨ htwRsv w ≠ 0#3 → encode (decode w) = w) ∧
    (htwWe w = false → htwRsv w = 0#3 → encode (decode w) = packHtw false 0#3 (htwOffset w) 0#32)

/-- R93: the decoder picks the first row of the opcode table that the word matches, and there always is one. -/
def Obligations.DecoderFollowsTheTable : Prop :=
  ∀ w : Htw, decodeByTable w = some (decode w)

/-- R88: an HTW with RSV != 0 decodes to an RSV row whatever its other fields are, and is refused without any effect. -/
def Obligations.RsvWordsAreRefused : Prop :=
  (∀ (we : Bool) (rsv : BitVec 3) (off : Offset) (d : Word) (s : State), rsv ≠ 0#3 →
    exec (decode (packHtw we rsv off d)) s = .refused .rsv) ∧
  (∀ (we : Bool) (low : BitVec 2) (off : Offset) (d : Word) (s : State),
    exec (.rsvRefusedB46 we low off d) s = .refused .rsv) ∧
  (∀ (we : Bool) (low : BitVec 1) (off : Offset) (d : Word) (s : State),
    exec (.rsvRefusedB45 we low off d) s = .refused .rsv) ∧
  (∀ (we : Bool) (off : Offset) (d : Word) (s : State), exec (.rsvRefusedB44 we off d) s = .refused .rsv)

/-- R98 and the decode vectors of 95_test_vectors.md section 2.2, written out as words. -/
def Obligations.SpecExampleWordsDecode : Prop :=
  decode 0x000800000000#48 = .rdStatus ∧ decode 0x0008DEADBEEF#48 = .rdStatus ∧
  decode 0x801800000013#48 = .wrCfg 0x13#32 ∧ decode 0x800400000001#48 = .cmdStart ∧
  decode 0x804000010203#48 = .wrCubeData 0x010203#32 ∧ decode 0x004400000000#48 = .rdLayout ∧
  decode 0x804600000001#48 = .wrUnmapped 0x046#12 1#32 ∧ decode 0x800400000101#48 = .cmdReserved 0x101#32 ∧
  decode 0x000900000000#48 = .rdUnmapped 0x009#12 ∧ decode 0x8FFC00000000#48 = .wrUnmapped 0xFFC#12 0#32 ∧
  decode 0x100800000000#48 = .rsvRefusedB44 false 0x008#12 0#32 ∧
  decode 0xC01800000000#48 = .rsvRefusedB46 true 0#2 0x018#12 0#32

/-! ### Steps and reset -/

/-- R70, R76: where the next event is a host transaction whose word is a well-formed instruction's, the step is that
instruction's execution on the state without the event; a raw word runs as its decoding. Around it the step brings the
model's record of a rise of irq up to date (settle, log entry 20), which changes the field irqRose only. -/
def Obligations.StepRunsTheDecodedTransaction : Prop :=
  (∀ (w : Htw) (rest : List Event) (s : State), s.inbox = .txn w :: rest →
    step s = settle { s with inbox := rest } (exec (decode w) { s with inbox := rest })) ∧
  (∀ (i : Instr) (rest : List Event) (s : State), i.wf = true → s.inbox = .txn (encode i) :: rest →
    step s = settle { s with inbox := rest } (exec i { s with inbox := rest })) ∧
  (∀ (i : Instr) (s : State), i.wf = true → step (s.withFetchWord 48 (encode i).toNat) = settle s (exec i s)) ∧
  (∀ (s t : State), settle s (.next t) = .next { t with irqRose := (settleIrq s t).irqRose }) ∧
  (∀ (s : State) (r : Fault), settle s (.fault r) = .fault r) ∧
  (∀ (s : State) (r : Refusal), settle s (.refused r) = .refused r)

/-- R174, R253: the engine has a step exactly while BUSY = 1. Left alone, a busy machine takes engine steps and an idle
one keeps all its state. (That a busy machine without other events takes the engine's step is the model's reading of
R276's weak fairness, log entry 2; settle is StepRunsTheDecodedTransaction's.) -/
def Obligations.EngineStepsExactlyWhileBusy : Prop :=
  (∀ s : State, s.inbox = [] → s.busy = true → step s = settle s (engineStep s)) ∧
  (∀ s : State, s.inbox = [] → s.busy = false → step s = .next s) ∧
  (∀ (s : State) (rest : List Event), s.inbox = .engine :: rest → s.busy = true →
    step s = settle { s with inbox := rest } (engineStep { s with inbox := rest })) ∧
  (∀ (s : State) (rest : List Event), s.inbox = .engine :: rest → s.busy = false →
    step s = .next { s with inbox := rest })

/-- R50, R263: what the reset state holds and replies. (The cursor, pixel memory and the model's own fields are no part
of it: log entries 1 and 4 to 6.) -/
def Obligations.ResetStateIsTheTable : Prop :=
  (∀ r v, (r, v) ∈ [(Instr.rdId, 0x50580100#32), (.rdCmd, 0#32), (.rdStatus, 0#32), (.rdErr, 0#32),
      (.rdIntStatus, 0#32), (.rdIntEnable, 0#32), (.rdCfg, 0#32), (.rdWidth, 0#32), (.rdHeight, 0#32),
      (.rdSrcBase, 0#32), (.rdSrcStride, 0#32), (.rdDstBase, 0#32), (.rdDstStride, 0#32), (.rdClutIndex, 0#32),
      (.rdCubeIndex, 0#32), (.rdLayout, 0x324#32)] →
    exec r State.reset = .next { State.reset with reply := .word v }) ∧
  (∀ i : Nat, State.reset.clut.entry i = none ∧ State.reset.cube.entry i = none) ∧
  irq State.reset = false ∧ State.reset.inplace = false

/-- R260, R261, R262, R264: a reset in any state, a running job included, leaves every register and LUT entry as the
reset state has it, abandons the job without DONE, and leaves every byte of pixel memory alone. -/
def Obligations.ResetFromAnyState : Prop :=
  ∀ (s : State) (rest : List Event), s.inbox = .reset :: rest →
    ∃ t, step s = .next t ∧ t.inbox = rest ∧ (∀ a, t.mem.read a = s.mem.read a) ∧
      t.busy = false ∧ t.cubeReady = false ∧ t.err = ⟨.noError, false, 0#16⟩ ∧ t.done = false ∧
      t.doneIe = false ∧ t.errIe = false ∧ irq t = false ∧ cfgWord t.cfg = 0#32 ∧ layoutWord t.cfg.fmt = 0x324#32 ∧
      t.width = 0#16 ∧ t.height = 0#16 ∧ t.srcBase = 0#32 ∧ t.srcStride = 0#32 ∧ t.dstBase = 0#32 ∧
      t.dstStride = 0#32 ∧ t.clutIndex = 0#8 ∧ t.cubeIndex = 0#24 ∧ t.inplace = false ∧
      (∀ i : Nat, t.clut.entry i = none ∧ t.cube.entry i = none)

/-! ### Invariants -/

/-- R25, R31, R46, R165, R173: every step keeps the canonical form of the RAMs, the coherence of ERR, and, while
BUSY = 1, a frame that passed all START checks with the cursor inside it. -/
def Obligations.StepKeepsTheInvariant : Prop :=
  ∀ s t : State, Invariant s → step s = .next t → Invariant t

/-- The reset state meets the invariant. -/
def Obligations.ResetMeetsTheInvariant : Prop := Invariant State.reset

/-! ### Errors and interrupts -/

/-- R233, R246: the first error is kept with its code and INFO, a later one sets OVF only. -/
def Obligations.FirstErrorKeptLaterSetOvf : Prop :=
  ∀ (s : State) (c : ErrCode) (n : BitVec 16),
    (s.err.code = .noError → raiseError s c n = { s with err := { s.err with code := c, info := n } }) ∧
    (s.err.code ≠ .noError → raiseError s c n = { s with err := { s.err with ovf := true } })

/-- R233, R234: a transaction that raises an error in a state, which is to say that it would leave one recorded were ERR
clear, changes nothing but ERR there, as R233 says, and its reply, where it is a read, is 0. -/
def Obligations.ErrorsArePrecise : Prop :=
  ∀ (i : Instr) (s u : State), exec i { s with err := ⟨.noError, false, 0#16⟩ } = .next u → u.err.code ≠ .noError →
    ∃ t, exec i s = .next t ∧ t = { s with err := recordedError s u.err.code u.err.info, reply := t.reply } ∧
      (htwWe (encode i) = true → t.reply = .nothing) ∧ (htwWe (encode i) = false → t.reply = .word 0#32)

/-- R245, R161, R78: whatever transaction the host issues while BUSY = 1, the job, the LUTs, the geometry, both index
registers and every byte of pixel memory stay as they were. -/
def Obligations.TransactionsLeaveARunningJobAlone : Prop :=
  ∀ (i : Instr) (s t : State), s.busy = true → exec i s = .next t →
    SameJob s t ∧ t.clutIndex = s.clutIndex ∧ t.cubeIndex = s.cubeIndex ∧ t.mem = s.mem ∧ t.stale = s.stale

/-- R237, R241, R27: the level of irq, and STATUS.IRQ as its view, in the reply of RD STATUS. -/
def Obligations.IrqIsTheOrOfEnabledSources : Prop :=
  ∀ s : State,
    (irq s = true ↔ (s.done = true ∧ s.doneIe = true) ∨ (s.err.code ≠ .noError ∧ s.errIe = true)) ∧
    ∃ t v, exec .rdStatus s = .next t ∧ t.reply = .word v ∧ v.getLsbD 4 = irq s ∧ irq t = irq s

/-- R100: each busy-guarded transaction, while BUSY = 1, records ERR_BUSY with its offset as INFO and does nothing else;
a refused read replies 0. -/
def Obligations.BusyGuardRefuses : Prop :=
  ∀ (s : State) (d : Word), s.busy = true →
    (∀ i off, (i, off) ∈ [(Instr.wrCfg d, 0x0018#16), (.wrWidth d, 0x001C#16), (.wrHeight d, 0x0020#16),
        (.wrSrcBase d, 0x0024#16), (.wrSrcStride d, 0x0028#16), (.wrDstBase d, 0x002C#16), (.wrDstStride d, 0x0030#16),
        (.wrClutIndex d, 0x0034#16), (.wrClutData d, 0x0038#16), (.wrCubeIndex d, 0x003C#16),
        (.wrCubeData d, 0x0040#16), (.cmdStart, 0x0004#16), (.cmdCubeInvalidate, 0x0004#16),
        (.cmdCubeCommit, 0x0004#16)] →
      exec i s = .next { s with err := recordedError s .busy off, reply := .nothing }) ∧
    (∀ i off, (i, off) ∈ [(Instr.rdClutData, 0x0038#16), (.rdCubeData, 0x0040#16)] →
      exec i s = .next { s with err := recordedError s .busy off, reply := .word 0#32 })

/-! ### Register reads -/

/-- R102, R103: ID replies its constant and CMD replies 0 in every state, whatever WDATA the word carries. -/
def Obligations.IdAndCmdReads : Prop :=
  (∀ d : Word, decode (packHtw false 0#3 0x000#12 d) = .rdId ∧ decode (packHtw false 0#3 0x004#12 d) = .rdCmd) ∧
  ∀ s : State, exec .rdId s = .next { s with reply := .word 0x50580100#32 } ∧
    exec .rdCmd s = .next { s with reply := .word 0x00000000#32 }

/-- R104: STATUS shows BUSY, CUBE_READY, ERR, DONE and IRQ in bits 0 to 4 and 0 above. The read writes no register. That
with BUSY = 0 it empties the model's record of unordered bytes is the model's form of R74 (log entry 3). -/
def Obligations.StatusRead : Prop :=
  (∀ d : Word, decode (packHtw false 0#3 0x008#12 d) = .rdStatus) ∧
  ∀ s : State, ∃ v : Word,
    exec .rdStatus s = .next { s with reply := .word v, stale := if s.busy then s.stale else [] } ∧
    v.getLsbD 0 = s.busy ∧ v.getLsbD 1 = s.cubeReady ∧ v.getLsbD 2 = (s.err.code != .noError) ∧
    v.getLsbD 3 = s.done ∧
    v.getLsbD 4 = ((s.done && s.doneIe) || (s.err.code != .noError && s.errIe)) ∧
    ∀ k, 5 ≤ k → v.getLsbD k = false

/-- R106, R108: ERR shows INFO, OVF and CODE at their places, INT_STATUS shows DONE; neither read clears anything. That
with BUSY = 0 each empties the model's record of unordered bytes is the model's reading of R74, DEDUCED for RD ERR, which
does not show BUSY (log entry 3). -/
def Obligations.ErrAndIntStatusReads : Prop :=
  (∀ d : Word, decode (packHtw false 0#3 0x00C#12 d) = .rdErr ∧ decode (packHtw false 0#3 0x010#12 d) = .rdIntStatus) ∧
  ∀ s : State,
    (∃ v : Word, exec .rdErr s = .next { s with reply := .word v, stale := if s.busy then s.stale else [] } ∧
      v.extractLsb' 0 8 = errCodeValue s.err.code ∧ v.getLsbD 8 = s.err.ovf ∧ v.extractLsb' 9 7 = 0#7 ∧
      v.extractLsb' 16 16 = s.err.info) ∧
    exec .rdIntStatus s = .next { s with
      reply := .word (if s.done then 1#32 else 0#32), stale := if s.busy then s.stale else [] }

/-- R110, R113: INT_ENABLE and CFG show their fields at their places, and 0 in every reserved bit. -/
def Obligations.IntEnableAndCfgReads : Prop :=
  (∀ d : Word, decode (packHtw false 0#3 0x014#12 d) = .rdIntEnable ∧
    decode (packHtw false 0#3 0x018#12 d) = .rdCfg) ∧
  ∀ s : State,
    (∃ v : Word, exec .rdIntEnable s = .next { s with reply := .word v } ∧
      v.getLsbD 0 = s.doneIe ∧ v.getLsbD 1 = s.errIe ∧ v.extractLsb' 2 30 = 0#30) ∧
    (∃ v : Word, exec .rdCfg s = .next { s with reply := .word v } ∧
      v.extractLsb' 0 4 = formatCode s.cfg.fmt ∧ v.extractLsb' 4 2 = modeCode s.cfg.mode ∧
      v.extractLsb' 6 2 = 0#2 ∧ v.extractLsb' 8 3 = s.cfg.alignLog2 ∧ v.extractLsb' 11 21 = 0#21)

/-- R114, R116, R118, R120, R122, R124: the geometry registers reply their value, zero-extended. -/
def Obligations.GeometryReads : Prop :=
  (∀ d : Word, decode (packHtw false 0#3 0x01C#12 d) = .rdWidth ∧ decode (packHtw false 0#3 0x020#12 d) = .rdHeight ∧
    decode (packHtw false 0#3 0x024#12 d) = .rdSrcBase ∧ decode (packHtw false 0#3 0x028#12 d) = .rdSrcStride ∧
    decode (packHtw false 0#3 0x02C#12 d) = .rdDstBase ∧ decode (packHtw false 0#3 0x030#12 d) = .rdDstStride) ∧
  ∀ s : State,
    exec .rdWidth s = .next { s with reply := .word (BitVec.ofNat 32 s.width.toNat) } ∧
    exec .rdHeight s = .next { s with reply := .word (BitVec.ofNat 32 s.height.toNat) } ∧
    exec .rdSrcBase s = .next { s with reply := .word s.srcBase } ∧
    exec .rdSrcStride s = .next { s with reply := .word s.srcStride } ∧
    exec .rdDstBase s = .next { s with reply := .word s.dstBase } ∧
    exec .rdDstStride s = .next { s with reply := .word s.dstStride }

/-- R38, R126: LAYOUT replies the word that the table gives for each format, in every state. -/
def Obligations.LayoutRead : Prop :=
  (∀ d : Word, decode (packHtw false 0#3 0x044#12 d) = .rdLayout) ∧
  ∀ (s : State) (v : Word), (s.cfg.fmt, v) ∈ [(PixelFormat.rgb24, 0x00000324#32), (.bgr24, 0x00000306#32),
      (.rgba, 0x00001CE4#32), (.bgra, 0x00001CC6#32), (.abgr, 0x00001C1B#32), (.argb, 0x00001C39#32),
      (.zbgr, 0x00000C1B#32), (.zrgb, 0x00000C39#32), (.rgbz, 0x00000CE4#32), (.bgrz, 0x00000CC6#32)] →
    exec .rdLayout s = .next { s with reply := .word v }

/-- R127: a read of an offset that no register has replies 0 and changes nothing; the offset decodes so exactly when it
is not word-aligned or lies past LAYOUT. -/
def Obligations.UnmappedRead : Prop :=
  (∀ (off : Offset) (d : Word), off.toNat % 4 ≠ 0 ∨ 0x044 < off.toNat →
    decode (packHtw false 0#3 off d) = .rdUnmapped off) ∧
  ∀ (off : Offset) (s : State), exec (.rdUnmapped off) s = .next { s with reply := .word 0#32 }

/-! ### Register writes -/

/-- R101, R105, R107, R128, R129: a write to a read-only register or an unmapped offset records ERR_BADREG with the
offset as INFO, whatever BUSY is, and does nothing else. -/
def Obligations.ReadOnlyAndUnmappedWritesRefused : Prop :=
  (∀ d : Word, decode (packHtw true 0#3 0x000#12 d) = .wrId d ∧ decode (packHtw true 0#3 0x008#12 d) = .wrStatus d ∧
    decode (packHtw true 0#3 0x00C#12 d) = .wrErr d ∧ decode (packHtw true 0#3 0x044#12 d) = .wrLayout d) ∧
  (∀ (off : Offset) (d : Word), off.toNat % 4 ≠ 0 ∨ 0x044 < off.toNat →
    decode (packHtw true 0#3 off d) = .wrUnmapped off d) ∧
  ∀ (s : State) (d : Word),
    exec (.wrId d) s = .next { s with err := recordedError s .badReg 0x0000#16, reply := .nothing } ∧
    exec (.wrStatus d) s = .next { s with err := recordedError s .badReg 0x0008#16, reply := .nothing } ∧
    exec (.wrErr d) s = .next { s with err := recordedError s .badReg 0x000C#16, reply := .nothing } ∧
    exec (.wrLayout d) s = .next { s with err := recordedError s .badReg 0x0044#16, reply := .nothing } ∧
    ∀ off : Offset, exec (.wrUnmapped off d) s =
      .next { s with err := recordedError s .badReg (BitVec.ofNat 16 off.toNat), reply := .nothing }

/-- R109, R111: WDATA[0] of INT_STATUS clears DONE and sets nothing; INT_ENABLE takes WDATA[1:0]; neither is
busy-guarded. -/
def Obligations.InterruptRegisterWrites : Prop :=
  (∀ d : Word, decode (packHtw true 0#3 0x010#12 d) = .wrIntStatus d ∧
    decode (packHtw true 0#3 0x014#12 d) = .wrIntEnable d) ∧
  ∀ (s : State) (d : Word),
    exec (.wrIntStatus d) s = .next { s with done := s.done && !d.getLsbD 0, reply := .nothing } ∧
    exec (.wrIntEnable d) s = .next { s with doneIe := d.getLsbD 0, errIe := d.getLsbD 1, reply := .nothing }

/-- R112: a CFG write is refused while BUSY = 1; else a reserved FMT is refused first, then a reserved MODE, and else
the three fields are taken and the reserved bits ignored. A refused write changes nothing but ERR. -/
def Obligations.CfgWrite : Prop :=
  (∀ d : Word, decode (packHtw true 0#3 0x018#12 d) = .wrCfg d) ∧
  ∀ (s : State) (d : Word),
    (s.busy = true → exec (.wrCfg d) s = .next { s with
      err := recordedError s .busy 0x0018#16, reply := .nothing }) ∧
    (s.busy = false → 9 < (d.extractLsb' 0 4).toNat → exec (.wrCfg d) s = .next { s with
      err := recordedError s .cfgFormat (BitVec.ofNat 16 (d.extractLsb' 0 4).toNat), reply := .nothing }) ∧
    (s.busy = false → (d.extractLsb' 0 4).toNat ≤ 9 → 1 < (d.extractLsb' 4 2).toNat →
      exec (.wrCfg d) s = .next { s with
        err := recordedError s .cfgMode (BitVec.ofNat 16 (d.extractLsb' 4 2).toNat), reply := .nothing }) ∧
    (s.busy = false → (d.extractLsb' 0 4).toNat ≤ 9 → (d.extractLsb' 4 2).toNat ≤ 1 →
      ∃ f m, formatCode f = d.extractLsb' 0 4 ∧ modeCode m = d.extractLsb' 4 2 ∧
        exec (.wrCfg d) s = .next { s with cfg := ⟨f, m, d.extractLsb' 8 3⟩, reply := .nothing })

/-- R115, R117, R119, R121, R123, R125: each geometry register takes its WDATA bits, unchecked, and nothing else
changes; while BUSY = 1 the write is refused with ERR_BUSY. -/
def Obligations.GeometryWrites : Prop :=
  (∀ d : Word, decode (packHtw true 0#3 0x01C#12 d) = .wrWidth d ∧ decode (packHtw true 0#3 0x020#12 d) = .wrHeight d ∧
    decode (packHtw true 0#3 0x024#12 d) = .wrSrcBase d ∧ decode (packHtw true 0#3 0x028#12 d) = .wrSrcStride d ∧
    decode (packHtw true 0#3 0x02C#12 d) = .wrDstBase d ∧ decode (packHtw true 0#3 0x030#12 d) = .wrDstStride d) ∧
  ∀ (s : State) (d : Word),
    let refused := fun off => ({ s with err := recordedError s .busy off, reply := .nothing } : State)
    exec (.wrWidth d) s = .next (if s.busy then refused 0x001C#16
      else { s with width := d.extractLsb' 0 16, reply := .nothing }) ∧
    exec (.wrHeight d) s = .next (if s.busy then refused 0x0020#16
      else { s with height := d.extractLsb' 0 16, reply := .nothing }) ∧
    exec (.wrSrcBase d) s = .next (if s.busy then refused 0x0024#16 else { s with srcBase := d, reply := .nothing }) ∧
    exec (.wrSrcStride d) s = .next (if s.busy then refused 0x0028#16
      else { s with srcStride := d, reply := .nothing }) ∧
    exec (.wrDstBase d) s = .next (if s.busy then refused 0x002C#16 else { s with dstBase := d, reply := .nothing }) ∧
    exec (.wrDstStride d) s = .next (if s.busy then refused 0x0030#16
      else { s with dstStride := d, reply := .nothing })

/-! ### The LUT host port -/

/-- R150, R151, R154, R155: the index registers reply their value in every state, and take WDATA[7:0] and WDATA[23:0]
unless BUSY = 1, when the write is refused with ERR_BUSY. -/
def Obligations.IndexRegisters : Prop :=
  (∀ d : Word, decode (packHtw false 0#3 0x034#12 d) = .rdClutIndex ∧
    decode (packHtw true 0#3 0x034#12 d) = .wrClutIndex d ∧
    decode (packHtw false 0#3 0x03C#12 d) = .rdCubeIndex ∧
    decode (packHtw true 0#3 0x03C#12 d) = .wrCubeIndex d) ∧
  ∀ (s : State) (d : Word),
    let refused := fun off => ({ s with err := recordedError s .busy off, reply := .nothing } : State)
    exec .rdClutIndex s = .next { s with reply := .word (BitVec.ofNat 32 s.clutIndex.toNat) } ∧
    exec .rdCubeIndex s = .next { s with reply := .word (BitVec.ofNat 32 s.cubeIndex.toNat) } ∧
    exec (.wrClutIndex d) s = .next (if s.busy then refused 0x0034#16
      else { s with clutIndex := d.extractLsb' 0 8, reply := .nothing }) ∧
    exec (.wrCubeIndex d) s = .next (if s.busy then refused 0x003C#16
      else { s with cubeIndex := d.extractLsb' 0 24, reply := .nothing })

/-- R152, R156: a data-window read replies the entry at the index, zero-extended, and advances the index with
wrap-around, CUBE_READY unchanged; while BUSY = 1 it is refused with ERR_BUSY and the reply 0, the index unmoved; and an
entry that nothing has written is fault(LUT_UNWRITTEN). -/
def Obligations.DataWindowReads : Prop :=
  (∀ d : Word, decode (packHtw false 0#3 0x038#12 d) = .rdClutData ∧
    decode (packHtw false 0#3 0x040#12 d) = .rdCubeData) ∧
  ∀ s : State,
    (s.busy = true →
      exec .rdClutData s = .next { s with err := recordedError s .busy 0x0038#16, reply := .word 0#32 } ∧
      exec .rdCubeData s = .next { s with err := recordedError s .busy 0x0040#16, reply := .word 0#32 }) ∧
    (s.busy = false → ∀ e : BitVec 8, s.clut.entry s.clutIndex.toNat = some e →
      exec .rdClutData s = .next { s with
        clutIndex := BitVec.ofNat 8 ((s.clutIndex.toNat + 1) % 256), reply := .word (BitVec.ofNat 32 e.toNat) }) ∧
    (s.busy = false → ∀ e : BitVec 24, s.cube.entry s.cubeIndex.toNat = some e →
      exec .rdCubeData s = .next { s with
        cubeIndex := BitVec.ofNat 24 ((s.cubeIndex.toNat + 1) % 2 ^ 24), reply := .word (BitVec.ofNat 32 e.toNat) }) ∧
    (s.busy = false → s.clut.entry s.clutIndex.toNat = none → exec .rdClutData s = .fault .lutUnwritten) ∧
    (s.busy = false → s.cube.entry s.cubeIndex.toNat = none → exec .rdCubeData s = .fault .lutUnwritten)

/-- R153, R157: a data-window write stores the entry at the index, leaves every other entry alone, and advances the
index with wrap-around; a CUBE write also clears CUBE_READY. Nothing else changes. While BUSY = 1 it is refused with
ERR_BUSY. -/
def Obligations.DataWindowWrites : Prop :=
  (∀ d : Word, decode (packHtw true 0#3 0x038#12 d) = .wrClutData d ∧
    decode (packHtw true 0#3 0x040#12 d) = .wrCubeData d) ∧
  ∀ (s : State) (d : Word),
    (s.busy = true →
      exec (.wrClutData d) s = .next { s with err := recordedError s .busy 0x0038#16, reply := .nothing } ∧
      exec (.wrCubeData d) s = .next { s with err := recordedError s .busy 0x0040#16, reply := .nothing }) ∧
    (s.busy = false → ∃ t, exec (.wrClutData d) s = .next t ∧
      t = { s with clut := t.clut, clutIndex := BitVec.ofNat 8 ((s.clutIndex.toNat + 1) % 256), reply := .nothing } ∧
      t.clut.entry s.clutIndex.toNat = some (d.extractLsb' 0 8) ∧
      ∀ j, j ≠ s.clutIndex.toNat → t.clut.entry j = s.clut.entry j) ∧
    (s.busy = false → ∃ t, exec (.wrCubeData d) s = .next t ∧
      t = { s with cube := t.cube, cubeIndex := BitVec.ofNat 24 ((s.cubeIndex.toNat + 1) % 2 ^ 24),
                   cubeReady := false, reply := .nothing } ∧
      t.cube.entry s.cubeIndex.toNat = some (d.extractLsb' 0 24) ∧
      ∀ j, j ≠ s.cubeIndex.toNat → t.cube.entry j = s.cube.entry j)

/-- R158: `WR CLUT_INDEX, 0` and then 256 data writes leave every CLUT entry as written and CLUT_INDEX = 0. -/
def Obligations.FullClutLoad : Prop :=
  ∀ (s : State) (values : List Word), s.busy = false → values.length = 256 →
    s.inbox = .txn (encodeWrite (regOffset .clutIndex) 0#32) :: clutDataEvents values →
    ∃ t, runFor (values.length + 1) s = .next t ∧
      t = { s with clut := t.clut, clutIndex := 0#8, reply := .nothing, inbox := [] } ∧
      ∀ (i : Nat) (h : i < values.length), t.clut.entry i = some (values[i].extractLsb' 0 8)

/-- R159: `WR CUBE_INDEX, 0`, then 2^24 data writes and CUBE_COMMIT leave every CUBE entry as written, CUBE_INDEX = 0
and CUBE_READY = 1. -/
def Obligations.FullCubeLoad : Prop :=
  ∀ (s : State) (values : List Word), s.busy = false → values.length = 2 ^ 24 →
    s.inbox = .txn (encodeWrite (regOffset .cubeIndex) 0#32) ::
      (cubeDataEvents values ++ [.txn (encodeWrite (regOffset .cmd) 4#32)]) →
    ∃ t, runFor (values.length + 2) s = .next t ∧
      t = { s with cube := t.cube, cubeIndex := 0#24, cubeReady := true, reply := .nothing, inbox := [] } ∧
      ∀ (i : Nat) (h : i < values.length), t.cube.entry i = some (values[i].extractLsb' 0 24)

/-! ### Commands -/

/-- R141, R143, R146: NOP changes no register; CLEAR_ERR clears CODE, OVF and INFO and nothing else; a reserved command
word records ERR_BADCMD with WDATA[15:0]; all three whatever BUSY is. -/
def Obligations.UnguardedCommands : Prop :=
  (decode 0x800400000000#48 = .cmdNop ∧ decode 0x800400000002#48 = .cmdClearErr ∧
    ∀ d : Word, 4 < d.toNat → decode (packHtw true 0#3 0x004#12 d) = .cmdReserved d) ∧
  ∀ s : State,
    exec .cmdNop s = .next { s with reply := .nothing } ∧
    exec .cmdClearErr s = .next { s with err := ⟨.noError, false, 0#16⟩, reply := .nothing } ∧
    ∀ d : Word, exec (.cmdReserved d) s =
      .next { s with err := recordedError s .badCmd (d.extractLsb' 0 16), reply := .nothing }

/-- R144, R145: CUBE_INVALIDATE and CUBE_COMMIT write CUBE_READY and nothing else, whatever the CUBE holds; while
BUSY = 1 they are refused with ERR_BUSY and INFO 0x0004. -/
def Obligations.CubeReadyCommands : Prop :=
  (decode 0x800400000003#48 = .cmdCubeInvalidate ∧ decode 0x800400000004#48 = .cmdCubeCommit) ∧
  ∀ s : State,
    let refused : State := { s with err := recordedError s .busy 0x0004#16, reply := .nothing }
    exec .cmdCubeInvalidate s = .next (if s.busy then refused else { s with cubeReady := false, reply := .nothing }) ∧
    exec .cmdCubeCommit s = .next (if s.busy then refused else { s with cubeReady := true, reply := .nothing })

/-- R142, R165, R167 to R173: what START does in every state, the checks in their order, written out from the registers
in exact arithmetic. -/
def Obligations.StartChecksInOrder : Prop :=
  decode 0x800400000001#48 = .cmdStart ∧
  ∀ s : State,
    let w := s.width.toNat
    let h := s.height.toNat
    let step := if formatCode s.cfg.fmt = 0#4 ∨ formatCode s.cfg.fmt = 1#4 then 3 else 4
    let a := 2 ^ s.cfg.alignLog2.toNat
    let sb := s.srcBase.toNat
    let ss := s.srcStride.toNat
    let db := s.dstBase.toNat
    let ds := s.dstStride.toNat
    let srcEnd := sb + (h - 1) * ss + w * step
    let dstEnd := db + (h - 1) * ds + w * step
    let inplace := sb = db ∧ ss = ds
    let refused := fun c n => ({ s with err := recordedError s c n, reply := .nothing } : State)
    exec .cmdStart s = .next (
      if s.busy = true then refused .busy 0x0004#16
      else if s.cfg.mode = .cube ∧ s.cubeReady = false then refused .cubeNotReady 0#16
      else if w = 0 ∨ h = 0 then { s with done := true, reply := .nothing }
      else if ss < w * step then refused .stride 0#16
      else if ds < w * step then refused .stride 1#16
      else if sb % a ≠ 0 then refused .align 0#16
      else if ss % a ≠ 0 then refused .align 1#16
      else if db % a ≠ 0 then refused .align 2#16
      else if ds % a ≠ 0 then refused .align 3#16
      else if srcEnd > 2 ^ 32 then refused .range 0#16
      else if dstEnd > 2 ^ 32 then refused .range 1#16
      else if ¬inplace ∧ sb < dstEnd ∧ db < srcEnd then refused .overlap 0#16
      else { s with inplace := decide inplace, curX := 0#16, curY := 0#16, done := false, busy := true,
                    reply := .nothing })

/-- R142, R173: a START that meets every condition is accepted: the job begins, and the geometry stays. -/
def Obligations.LegalStartIsAccepted : Prop :=
  ∀ s : State, s.busy = false → (s.cfg.mode = .cube → s.cubeReady = true) → emptyFrame s = false →
    geometryError s = none →
    ∃ t, exec .cmdStart s = .next t ∧ t.busy = true ∧ JobLegal t ∧ t.curX = 0#16 ∧ t.curY = 0#16 ∧
      t = { s with inplace := isInplace s, curX := 0#16, curY := 0#16, done := false, busy := true, reply := .nothing }

/-- R142, R270: a START that is refused, which is to say that it raises an error, leaves INT_STATUS.DONE as the previous
job left it and starts nothing, whatever ERR held before. -/
def Obligations.RefusedStartLeavesDone : Prop :=
  ∀ (s : State) (c : ErrCode) (n : BitVec 16), Raises .cmdStart s c n →
    ∃ t, exec .cmdStart s = .next t ∧ t.err = recordedError s c n ∧ t.done = s.done ∧ t.busy = s.busy ∧ t.mem = s.mem

/-! ### The engine -/

/-- R167, R169, R175: during a legal job every channel byte's address lies in its extent and below 2^32, and the pixels
of one row end before the next row begins. -/
def Obligations.PixelAddressesStayInTheExtents : Prop :=
  ∀ (s : State) (x y off : Nat), JobLegal s → x < s.width.toNat → y < s.height.toNat → off < stepOf s.cfg.fmt →
    s.srcBase.toNat ≤ srcPx s x y + off ∧ srcPx s x y + off < srcEnd s ∧ srcEnd s ≤ 2 ^ 32 ∧
    s.dstBase.toNat ≤ dstPx s x y + off ∧ dstPx s x y + off < dstEnd s ∧ dstEnd s ≤ 2 ^ 32 ∧
    srcPx s x y + off < srcPx s 0 (y + 1) ∧ dstPx s x y + off < dstPx s 0 (y + 1)

/-- R176, R177: after a pixel the cursor goes to the next column, else to the next row, else the job completes. -/
def Obligations.EngineStepAdvancesTheCursor : Prop :=
  ∀ s t : State, s.curX.toNat < s.width.toNat → s.curY.toNat < s.height.toNat → engineStep s = .next t →
    (s.curX.toNat + 1 < s.width.toNat →
      t.curX.toNat = s.curX.toNat + 1 ∧ t.curY = s.curY ∧ t.busy = s.busy ∧ t.done = s.done) ∧
    (s.curX.toNat + 1 = s.width.toNat → s.curY.toNat + 1 < s.height.toNat →
      t.curX = 0#16 ∧ t.curY.toNat = s.curY.toNat + 1 ∧ t.busy = s.busy ∧ t.done = s.done) ∧
    (s.curX.toNat + 1 = s.width.toNat → s.curY.toNat + 1 = s.height.toNat → t.busy = false ∧ t.done = true)

/-- R190 to R198: one engine step in CLUT mode looks each channel up in the one table, packs the outputs at the offsets
they were read from, copies the fourth byte of a step-4 pixel when not in place, and changes no other byte. For each byte
that it writes it records, in the model's own record, the byte that stood there, which R74 still lets the host see (log
entry 3). -/
def Obligations.ClutPixelStep : Prop :=
  ∀ (s : State) (r g b : Byte), s.mem.wf = true → s.busy = true → s.cfg.mode = .clut → ExtentsAdmitted s →
    JobLegal s →
    let l := layoutOf s.cfg.fmt
    let p := srcPx s s.curX.toNat s.curY.toNat
    let d := dstPx s s.curX.toNat s.curY.toNat
    s.clut.entry (s.mem.read (p + l.rOff)).toNat = some r →
    s.clut.entry (s.mem.read (p + l.gOff)).toNat = some g →
    s.clut.entry (s.mem.read (p + l.bOff)).toNat = some b →
    ∃ t, engineTurn s = .next t ∧
      t.mem.read (d + l.rOff) = r ∧ t.mem.read (d + l.gOff) = g ∧ t.mem.read (d + l.bOff) = b ∧
      (l.step = 4 → s.inplace = false → t.mem.read (d + l.aOff) = s.mem.read (p + l.aOff)) ∧
      (∀ a, a ≠ d + l.rOff → a ≠ d + l.gOff → a ≠ d + l.bOff →
        ¬(l.step = 4 ∧ s.inplace = false ∧ a = d + l.aOff) → t.mem.read a = s.mem.read a) ∧
      (∀ a b, (a, b) ∈ t.stale ↔ (a, b) ∈ s.stale ∨ (b = s.mem.read a ∧
        (a = d + l.rOff ∨ a = d + l.gOff ∨ a = d + l.bOff ∨ (l.step = 4 ∧ s.inplace = false ∧ a = d + l.aOff)))) ∧
      t = { s with mem := t.mem, stale := t.stale, curX := t.curX, curY := t.curY, busy := t.busy, done := t.done }

/-- R190 to R198: the same of CUBE mode, where one entry is read at the key R·65536 + G·256 + B. -/
def Obligations.CubePixelStep : Prop :=
  ∀ (s : State) (e : BitVec 24), s.mem.wf = true → s.busy = true → s.cfg.mode = .cube → ExtentsAdmitted s →
    JobLegal s →
    let l := layoutOf s.cfg.fmt
    let p := srcPx s s.curX.toNat s.curY.toNat
    let d := dstPx s s.curX.toNat s.curY.toNat
    s.cube.entry ((s.mem.read (p + l.rOff)).toNat * 65536 + (s.mem.read (p + l.gOff)).toNat * 256 +
      (s.mem.read (p + l.bOff)).toNat) = some e →
    ∃ t, engineTurn s = .next t ∧
      t.mem.read (d + l.rOff) = e.extractLsb' 16 8 ∧ t.mem.read (d + l.gOff) = e.extractLsb' 8 8 ∧
      t.mem.read (d + l.bOff) = e.extractLsb' 0 8 ∧
      (l.step = 4 → s.inplace = false → t.mem.read (d + l.aOff) = s.mem.read (p + l.aOff)) ∧
      (∀ a, a ≠ d + l.rOff → a ≠ d + l.gOff → a ≠ d + l.bOff →
        ¬(l.step = 4 ∧ s.inplace = false ∧ a = d + l.aOff) → t.mem.read a = s.mem.read a) ∧
      (∀ a b, (a, b) ∈ t.stale ↔ (a, b) ∈ s.stale ∨ (b = s.mem.read a ∧
        (a = d + l.rOff ∨ a = d + l.gOff ∨ a = d + l.bOff ∨ (l.step = 4 ∧ s.inplace = false ∧ a = d + l.aOff)))) ∧
      t = { s with mem := t.mem, stale := t.stale, curX := t.curX, curY := t.curY, busy := t.busy, done := t.done }

/-- R82, R198, R199: while BUSY = 1, where every read of the pixel step is admitted, a lookup that finds an unwritten
entry is fault(LUT_UNWRITTEN), and a write that the platform does not admit, the lookup made, is fault(MEM_NOT_ADMITTED);
and so is a read that it does not admit. The reads and the writes are those of the three channels and, where it is
copied, of the fourth byte. -/
def Obligations.EngineFaults : Prop :=
  ∀ s : State, s.busy = true →
    let l := layoutOf s.cfg.fmt
    let p := srcPx s s.curX.toNat s.curY.toNat
    let d := dstPx s s.curX.toNat s.curY.toNat
    let accessed := fun off => off = l.rOff ∨ off = l.gOff ∨ off = l.bOff ∨ (copiesFourth s = true ∧ off = l.aOff)
    let readsAdmitted := ∀ off, accessed off → admitsRead s (p + off) = true
    (readsAdmitted → remap s (sourceRgb s s.curX.toNat s.curY.toNat) = none → engineTurn s = .fault .lutUnwritten) ∧
    (readsAdmitted → remap s (sourceRgb s s.curX.toNat s.curY.toNat) ≠ none →
      ∀ off, accessed off → admitsWrite s (d + off) = false → engineTurn s = .fault .memNotAdmitted) ∧
    (∀ off, accessed off → admitsRead s (p + off) = false → engineTurn s = .fault .memNotAdmitted)

/-- R178, R180: a job of W × H pixels visits them in raster order, one engine step each, and completes with the last of
its W·H steps, whether other quiet events come between them or none. (The events as a list, and the engine's steps where
there is none, are the model's choice, log entry 2.) -/
def Obligations.JobVisitsPixelsInRasterOrder : Prop :=
  ∀ (s : State) (n : Nat) (rest : List Event), JobBegins s → RamsCanonical s → ExtentsAdmitted s → LutsCoverFrame s →
    JobSteps s n rest →
    (∀ k, k < n → engineSteps s k < s.width.toNat * s.height.toNat ∧
      ∃ t, runFor k s = .next t ∧ t.busy = true ∧ t.curX.toNat = engineSteps s k % s.width.toNat ∧
        t.curY.toNat = engineSteps s k / s.width.toNat) ∧
    engineSteps s n = s.width.toNat * s.height.toNat ∧
    ∃ t, runFor n s = .next t ∧ t.busy = false ∧ t.done = true ∧ t.inbox = rest

/-- R182, R179, R201, R202: the result of a whole job, with host transactions, host reads and looks at irq between its
engine steps or without. Every destination pixel holds the remapped channels of its source pixel and, for a step-4 format,
the source's fourth byte; every byte that the job does not write is as it was; nothing else changes but the cursor, BUSY
and DONE, what host transactions write while BUSY = 1 (ERR, INT_ENABLE, the reply) and the model's records; and where the
engine alone takes steps, not even those of the host. (The events as a list, and the engine's steps where there is none,
are the model's choice, log entry 2.) -/
def Obligations.WholeJobResult : Prop :=
  ∀ (s : State) (n : Nat) (rest : List Event), JobBegins s → RamsCanonical s → ExtentsAdmitted s → LutsCoverFrame s →
    JobSteps s n rest →
    ∃ t, runFor n s = .next t ∧ JobResult s t ∧
      t = { s with
        mem := t.mem, stale := t.stale, busy := false, done := true, curX := t.curX, curY := t.curY, err := t.err,
        doneIe := t.doneIe, errIe := t.errIe, reply := t.reply, races := t.races, irqRose := t.irqRose,
        inbox := rest } ∧
      ((∀ e ∈ s.inbox.take n, e = .engine) →
        t.err = s.err ∧ t.doneIe = s.doneIe ∧ t.errIe = s.errIe ∧ t.reply = s.reply ∧ t.races = s.races)

/-- R200: a job that is not in place writes no byte of the source extent, and every such byte ends as it was, with other
quiet events between the engine's steps or without (the events as a list are the model's choice, log entry 2). -/
def Obligations.CopyJobLeavesTheSource : Prop :=
  (∀ (s : State) (a : Nat), JobLegal s → s.inplace = false → s.srcBase.toNat ≤ a → a < srcEnd s → ¬JobWrites s a) ∧
  ∀ (s : State) (n : Nat) (rest : List Event), JobBegins s → RamsCanonical s → ExtentsAdmitted s → LutsCoverFrame s →
    s.inplace = false → JobSteps s n rest →
    ∃ t, runFor n s = .next t ∧ ∀ a, s.srcBase.toNat ≤ a → a < srcEnd s → t.mem.read a = s.mem.read a

/-- R203: with the identity CLUT an in-place job leaves every byte of memory unchanged, and a job that is not in place
copies every pixel's bytes, with other quiet events between the engine's steps or without (the events as a list are the
model's choice, log entry 2). -/
def Obligations.IdentityClutJob : Prop :=
  ∀ (s : State) (n : Nat) (rest : List Event), JobBegins s → RamsCanonical s → ExtentsAdmitted s →
    s.cfg.mode = .clut → (∀ i : BitVec 8, s.clut.entry i.toNat = some i) → JobSteps s n rest →
    ∃ t, runFor n s = .next t ∧
      (s.inplace = true → ∀ a, t.mem.read a = s.mem.read a) ∧
      (s.inplace = false → ∀ x y off, x < s.width.toNat → y < s.height.toNat → off < stepOf s.cfg.fmt →
        t.mem.read (dstPx s x y + off) = s.mem.read (srcPx s x y + off))

/-- R181, R245, R276: a host transaction that completes just before an engine step of a running job changes neither what
that step does to memory and the cursor nor whether it completes the job. -/
def Obligations.HostTransactionsDoNotDisturbEngineSteps : Prop :=
  ∀ (i : Instr) (s u t : State), s.busy = true → exec i s = .next u → engineTurn s = .next t →
    ∃ v, engineTurn u = .next v ∧ SameJob t v ∧ v.mem = t.mem ∧ v.stale = t.stale

/-! ### Host accesses to pixel memory -/

/-- R74: a host read of a byte gives the byte as memory has it, an old value that an engine write not yet ordered before
the read has overwritten, or the new value that the running job is still to write; and it changes no byte. -/
def Obligations.RacyHostReadGivesOldOrNew : Prop :=
  ∀ (s : State) (addr : Word) (rest : List Event), s.inbox = .hostRead addr :: rest →
    ∃ t v, step s = .next t ∧ t.reply = .byte v ∧ t.mem = s.mem ∧ t.inbox = rest ∧
      (v = s.mem.read addr.toNat ∨ (addr.toNat, v) ∈ s.stale ∨ pendingByte s addr.toNat = some v)

/-- R74: after RD STATUS, RD ERR or RD INT_STATUS with BUSY = 0, or a look at irq that shows its rise for DONE, a host
read of any byte gives exactly that byte. (RD ERR as a completion read is DEDUCED, log entry 3; the record of the rise is
the model's, log entry 20.) -/
def Obligations.CompletionReadOrdersJobWrites : Prop :=
  ∀ (s t : State) (addr : Word), s.busy = false →
    (∃ i, i ∈ [Instr.rdStatus, .rdErr, .rdIntStatus] ∧ exec i s = .next t) ∨
      (s.done = true ∧ s.doneIe = true ∧ s.irqRose = true ∧ runEvent .hostSeesIrq s = .next t) →
    runEvent (.hostRead addr) t = .next { t with reply := .byte (s.mem.read addr.toNat) }

/-- R74, R241: where DONE begins to drive irq, it is a rise for DONE exactly where nothing drove irq before and no error
drives it after; while DONE goes on driving irq there is no new rise; and a look at irq that shows no rise for DONE
orders nothing. (The record irqRose is the model's, log entry 20.) -/
def Obligations.IrqRisesForDone : Prop :=
  (∀ s t : State, step s = .next t → (s.done && s.doneIe) = false → (t.done && t.doneIe) = true →
    (t.irqRose = true ↔ irq s = false ∧ ¬(t.err.code ≠ .noError ∧ t.errIe = true))) ∧
  (∀ s t : State, step s = .next t → (s.done && s.doneIe) = true → (t.done && t.doneIe) = true →
    t.irqRose = s.irqRose) ∧
  (∀ s : State, ¬(s.done = true ∧ s.doneIe = true ∧ s.irqRose = true) → runEvent .hostSeesIrq s = .next s)

/-- R75: while BUSY = 1 the host has no move that writes a byte of either extent. Any other host write, of a byte with no
job write left unordered, stores its byte and changes no other. Where a job write of the byte is not yet ordered before
it, R74 leaves their order open: the byte holds what the host wrote, or what the job wrote, the host's then being the
overwritten one (log entry 3). -/
def Obligations.HostWritesStayOutOfRunningJobs : Prop :=
  ∀ (s : State) (addr : Word) (v : Byte),
    let inJob := s.busy = true ∧ ((s.srcBase.toNat ≤ addr.toNat ∧ addr.toNat < srcEnd s) ∨
      (s.dstBase.toNat ≤ addr.toNat ∧ addr.toNat < dstEnd s))
    (inJob → runEvent (.hostWrite addr v) s = .refused .hostWriteDuringJob) ∧
    (s.mem.wf = true → ¬inJob → (∀ b, (addr.toNat, b) ∉ s.stale) →
      ∃ t, runEvent (.hostWrite addr v) s = .next t ∧ t.mem.read addr.toNat = v ∧
        (∀ a, a ≠ addr.toNat → t.mem.read a = s.mem.read a) ∧ t = { s with mem := t.mem, reply := .nothing }) ∧
    (s.mem.wf = true → ¬inJob → (∃ b, (addr.toNat, b) ∈ s.stale) →
      ∃ t, runEvent (.hostWrite addr v) s = .next t ∧
        (t.mem.read addr.toNat = v ∨
          (t.mem.read addr.toNat = s.mem.read addr.toNat ∧ (addr.toNat, v) ∈ t.stale)) ∧
        (∀ a, a ≠ addr.toNat → t.mem.read a = s.mem.read a) ∧
        (∀ a b, a ≠ addr.toNat → ((a, b) ∈ t.stale ↔ (a, b) ∈ s.stale)) ∧
        t = { s with mem := t.mem, stale := t.stale, races := s.races + 1, reply := .nothing })

/-! ### Host reference functions -/

/-- R211: the host refuses darken parameters outside their sets, and then loads no table; else the table is loaded and
CFG written. (A real amount is a fraction, and an `adaptive` code outside its set is refused in RELATIVE mode too: log
entries 11 and 21.) -/
def Obligations.DarkenChecksItsParameters : Prop :=
  ∀ (o : DarkenOptions) (f : PixelFormat) (alignLog2 : BitVec 3),
    let legal := (o.typeCode = 0 ∨ o.typeCode = 1) ∧ (o.adaptiveCode = 0 ∨ o.adaptiveCode = 1) ∧ 0 < o.den ∧
      0 ≤ o.num ∧ o.num ≤ 255 * (o.den : Int)
    (¬legal → darkenTable o = none ∧ darkenSetup o f alignLog2 = none) ∧
    (legal → ∃ p t, darkenCheck o = some p ∧ darkenTable o = some t ∧
      (p.kind = .relative ↔ o.typeCode = 0) ∧ (p.adaptive = true ↔ o.adaptiveCode = 1) ∧ (p.num : Int) = o.num ∧
      p.den = o.den ∧ t.length = 256 ∧ (∀ i, i < 256 → t[i]? = some (darkenEntry p i)) ∧
      darkenSetup o f alignLog2 = some (loadClut t ++ expand (.cfgw f .clut alignLog2)))

/-- R212, R213: a darken entry is the formula of R213 in exact real arithmetic (R220), for every amount that is a
fraction (log entry 11). -/
def Obligations.DarkenEntryIsTheRealFormula : Prop :=
  ∀ (p : DarkenParams) (i : Nat), 0 < p.den →
    let value : ℝ := (p.num : ℝ) / (p.den : ℝ)
    let amount : ℝ := if p.kind = .relative then i * value / 100
      else if p.adaptive = false then value
      else value * i / 255
    (darkenEntry p i : ℤ) = max 0 ((i : ℤ) - ⌈amount - 1 / 2⌉)

/-- R213, R214: no darken entry exceeds its index; RELATIVE with value 0 is the identity; SUBTRACTIVE adaptive with value
255 is 0 everywhere. (A real amount is modelled as a fraction, log entry 11.) -/
def Obligations.DarkenProperties : Prop :=
  (∀ (p : DarkenParams) (i : Nat), darkenEntry p i ≤ i) ∧
  (∀ (p : DarkenParams) (i : Nat), p.kind = .relative → p.num = 0 → 0 < p.den → darkenEntry p i = i) ∧
  (∀ (p : DarkenParams) (i : Nat), p.kind = .subtractive → p.adaptive = true → 0 < p.den → p.num = 255 * p.den →
    darkenEntry p i = 0)

/-- R212: `rnd_tz(n/d)` is the nearest integer to n/d, ties toward zero: the k with k - 1/2 < n/d ≤ k + 1/2, or 0. -/
def Obligations.DarkenRoundsTiesToZero : Prop :=
  ∀ n d k : Nat, 0 < d →
    (roundTiesToZero n d = k ↔ 2 * n ≤ (2 * k + 1) * d ∧ (0 < k → (2 * k - 1) * d < 2 * n))

/-- R215: the samples are the pixels of the frame whose coordinates are multiples of 20, ceil(W/20) · ceil(H/20) of
them. -/
def Obligations.SamplesAreTheGridOfTwenty : Prop :=
  ∀ w h : Nat,
    (∀ x y, (x, y) ∈ samplePoints w h ↔ x < w ∧ y < h ∧ 20 ∣ x ∧ 20 ∣ y) ∧
    (samplePoints w h).length = ((w + 19) / 20) * ((h + 19) / 20)

/-- R216, R217, R219, R221: black samples have mean brightness 0, the gamma table of mean brightness 0 is the identity
table, and so the table of a frame whose samples are black, of which there is at least one, is the identity table. -/
def Obligations.GammaOfBlackIsIdentity : Prop :=
  (∀ samples : List Rgb, samples ≠ [] → (∀ p ∈ samples, p = ⟨0#8, 0#8, 0#8⟩) →
    ∀ avg : ℝ, IsAverage samples avg ↔ avg = 0) ∧
  (∀ t : List Nat, IsGammaTable 0 t ↔ t = identityTable) ∧
  (∀ (m : Memory) (f : Frame), frameSamples m f ≠ [] → (∀ p ∈ frameSamples m f, p = ⟨0#8, 0#8, 0#8⟩) →
    ∀ table, IsFrameGammaTable m f table ↔ table = some identityTable)

/-- R215, R216, R218: a frame has no sample exactly where its width or height is 0, and then the host builds no gamma
table; else it has exactly one. -/
def Obligations.GammaIsSkippedWithoutSamples : Prop :=
  ∀ (m : Memory) (f : Frame),
    (frameSamples m f = [] ↔ f.width = 0 ∨ f.height = 0) ∧
    (f.width = 0 ∨ f.height = 0 → ∀ table, IsFrameGammaTable m f table ↔ table = none) ∧
    (f.width ≠ 0 → f.height ≠ 0 →
      ¬IsFrameGammaTable m f none ∧ ∃ t, IsFrameGammaTable m f (some t) ∧
        ∀ t', IsFrameGammaTable m f (some t') → t' = t)

/-- R219: for every mean brightness of 0 or more the gamma table begins with 0, ends with 255 and never falls. -/
def Obligations.GammaTableNeverFalls : Prop :=
  ∀ (avg : ℝ) (t : List Nat), 0 ≤ avg → IsGammaTable avg t →
    t.length = 256 ∧ t[0]? = some 0 ∧ t[255]? = some 255 ∧
      ∀ (i j a b : Nat), i ≤ j → t[i]? = some a → t[j]? = some b → a ≤ b
end

