-- ==== Sys2Proof/Laws/Encoding.lean ====
section
/-! SUPPORT. The fields of a packed HTW, and what the decoder does with each kind of word. -/

namespace Sys2Proof

theorem packHtw_getLsbD (we : Bool) (rsv : BitVec 3) (off : Offset) (d : Word) (i : Nat) :
    (packHtw we rsv off d).getLsbD i =
      if i < 32 then d.getLsbD i
      else if i < 44 then off.getLsbD (i - 32)
      else if i < 47 then rsv.getLsbD (i - 44)
      else decide (i = 47) && we := by
  have e : (packHtw we rsv off d).getLsbD i =
      ((BitVec.ofBool we ++ rsv ++ off ++ d : BitVec (1 + 3 + 12 + 32))).getLsbD i := rfl
  rw [e, BitVec.getLsbD_append, BitVec.getLsbD_append, BitVec.getLsbD_append, BitVec.getLsbD_ofBool]
  by_cases h1 : i < 32
  · simp only [h1, if_true]
  · by_cases h2 : i < 44
    · simp only [h1, h2, if_false, if_true, show i - 32 < 12 by omega]
    · by_cases h3 : i < 47
      · simp only [h1, h2, h3, if_false, if_true, show ¬i - 32 < 12 by omega, show i - 44 < 3 by omega,
          show i - 32 - 12 = i - 44 by omega]
      · simp only [h1, h2, h3, if_false, show ¬i - 32 < 12 by omega, show ¬i - 32 - 12 < 3 by omega]
        congr 1
        simp only [decide_eq_decide]
        omega

@[simp] theorem htwWe_packHtw (we : Bool) (rsv : BitVec 3) (off : Offset) (d : Word) :
    htwWe (packHtw we rsv off d) = we := by
  simp only [htwWe, packHtw_getLsbD]; simp

@[simp] theorem htwOffset_packHtw (we : Bool) (rsv : BitVec 3) (off : Offset) (d : Word) :
    htwOffset (packHtw we rsv off d) = off := by
  apply BitVec.eq_of_getLsbD_eq
  intro i hi
  simp only [htwOffset, BitVec.getLsbD_extractLsb', packHtw_getLsbD, hi, decide_true, Bool.true_and,
    show ¬32 + i < 32 by omega, show 32 + i < 44 by omega, if_true, if_false, Nat.add_sub_cancel_left]

@[simp] theorem htwWdata_packHtw (we : Bool) (rsv : BitVec 3) (off : Offset) (d : Word) :
    htwWdata (packHtw we rsv off d) = d := by
  apply BitVec.eq_of_getLsbD_eq
  intro i hi
  simp only [htwWdata, BitVec.getLsbD_extractLsb', packHtw_getLsbD, hi, decide_true, Bool.true_and, Nat.zero_add,
    if_true]

@[simp] theorem htwRsv_packHtw (we : Bool) (rsv : BitVec 3) (off : Offset) (d : Word) :
    htwRsv (packHtw we rsv off d) = rsv := by
  apply BitVec.eq_of_getLsbD_eq
  intro i hi
  simp only [htwRsv, BitVec.getLsbD_extractLsb', packHtw_getLsbD, hi, decide_true, Bool.true_and,
    show ¬44 + i < 32 by omega, show ¬44 + i < 44 by omega, show 44 + i < 47 by omega, if_true, if_false,
    Nat.add_sub_cancel_left]

/-- Two words with the same fields are the same word (R85). -/
theorem htw_ext {w w' : Htw} (h1 : htwWe w = htwWe w') (h2 : htwRsv w = htwRsv w') (h3 : htwOffset w = htwOffset w')
    (h4 : htwWdata w = htwWdata w') : w = w' := by
  apply BitVec.eq_of_getLsbD_eq
  intro i hi
  by_cases a : i < 32
  · have := congrArg (fun v : Word => v.getLsbD i) h4
    simpa only [htwWdata, BitVec.getLsbD_extractLsb', a, decide_true, Bool.true_and, Nat.zero_add] using this
  · by_cases b : i < 44
    · have := congrArg (fun v : Offset => v.getLsbD (i - 32)) h3
      simpa only [htwOffset, BitVec.getLsbD_extractLsb', show i - 32 < 12 by omega, decide_true, Bool.true_and,
        show 32 + (i - 32) = i by omega] using this
    · by_cases c : i < 47
      · have := congrArg (fun v : BitVec 3 => v.getLsbD (i - 44)) h2
        simpa only [htwRsv, BitVec.getLsbD_extractLsb', show i - 44 < 3 by omega, decide_true, Bool.true_and,
          show 44 + (i - 44) = i by omega] using this
      · obtain rfl : i = 47 := by omega
        exact h1

/-- A word is packed from its fields (R85). -/
theorem packHtw_fields (w : Htw) : packHtw (htwWe w) (htwRsv w) (htwOffset w) (htwWdata w) = w :=
  htw_ext (by simp) (by simp) (by simp) (by simp)

/-- The RSV bits of a word, one by one. -/
theorem htwRsv_getLsbD (w : Htw) {k : Nat} (h : k < 3) : (htwRsv w).getLsbD k = w.getLsbD (44 + k) := by
  simp only [htwRsv, BitVec.getLsbD_extractLsb', h, decide_true, Bool.true_and]

/-- With RSV = 0 the decoder goes by WE and OFFSET (R86, R94). -/
theorem decode_packHtw_rsv0 (we : Bool) (off : Offset) (d : Word) :
    decode (packHtw we 0#3 off d) = if we then decodeWrite off d else decodeRead off := by
  have h46 : (packHtw we 0#3 off d).getLsbD 46 = false := by rw [packHtw_getLsbD]; rfl
  have h45 : (packHtw we 0#3 off d).getLsbD 45 = false := by rw [packHtw_getLsbD]; rfl
  have h44 : (packHtw we 0#3 off d).getLsbD 44 = false := by rw [packHtw_getLsbD]; rfl
  simp only [decode, h46, h45, h44, Bool.false_eq_true, if_false, htwWe_packHtw, htwOffset_packHtw, htwWdata_packHtw]

/-- An unmapped offset is none of the register offsets (R22). -/
theorem unmapped_ne {off : Offset} (h : mappedOffset off = false) {n : Nat} (h4 : n % 4 = 0) (hn : n ≤ 0x44) :
    off ≠ BitVec.ofNat 12 n := by
  rintro rfl
  simp [mappedOffset] at h
  omega

theorem decodeRead_unmapped {off : Offset} (h : mappedOffset off = false) : decodeRead off = .rdUnmapped off := by
  have hne := @unmapped_ne off h
  simp only [decodeRead]
  iterate 18 rw [if_neg (hne (by decide) (by decide))]

theorem decodeWrite_unmapped {off : Offset} (h : mappedOffset off = false) (d : Word) :
    decodeWrite off d = .wrUnmapped off d := by
  have hne := @unmapped_ne off h
  simp only [decodeWrite]
  iterate 18 rw [if_neg (hne (by decide) (by decide))]

theorem decodeCommand_reserved {d : Word} (h : isCommandWord d = false) : decodeCommand d = .cmdReserved d := by
  have hne : ∀ {n : Nat}, n ≤ 4 → d ≠ BitVec.ofNat 32 n := by
    rintro n hn rfl
    simp [isCommandWord] at h
    omega
  simp only [decodeCommand]
  iterate 5 rw [if_neg (hne (by decide))]

end Sys2Proof
end

