-- ==== Sys2Proof/Laws/Memory.lean ====
section
/-! SUPPORT. The laws of pixel memory and of the LUT RAMs: a read after a write, and every operation keeps the
canonical form. -/

namespace Sys2Proof.Machine

variable {α : Type} {ok : α → Bool} {hi lo : Nat}

/-! ### Lists by rising key -/

@[simp] theorem lookupKey_nil (a : Nat) : lookupKey ([] : List (Nat × α)) a = none := rfl

theorem lookupKey_cons (k a : Nat) (v : α) (rest : List (Nat × α)) :
    lookupKey ((k, v) :: rest) a = if k = a then some v else lookupKey rest a := rfl

@[simp] theorem risingIn_nil : risingIn ok hi lo ([] : List (Nat × α)) = true := by simp [risingIn]

theorem risingIn_cons (k : Nat) (v : α) (rest : List (Nat × α)) :
    risingIn ok hi lo ((k, v) :: rest) = true ↔
      lo ≤ k ∧ k < hi ∧ ok v = true ∧ risingIn ok hi (k + 1) rest = true := by
  simp [risingIn, and_assoc]

theorem risingIn_mono {lo' : Nat} (h : lo' ≤ lo) {l : List (Nat × α)} (hl : risingIn ok hi lo l = true) :
    risingIn ok hi lo' l = true := by
  cases l with
  | nil => simp
  | cons c rest =>
    obtain ⟨k, v⟩ := c
    rw [risingIn_cons] at *
    exact ⟨h.trans hl.1, hl.2⟩

/-- A key below the first bound is not listed. -/
theorem lookupKey_below {l : List (Nat × α)} (hl : risingIn ok hi lo l = true) {a : Nat} (h : a < lo) :
    lookupKey l a = none := by
  induction l generalizing lo with
  | nil => rfl
  | cons c rest ih =>
    obtain ⟨k, v⟩ := c
    rw [risingIn_cons] at hl
    rw [lookupKey_cons, if_neg (by omega)]
    exact ih hl.2.2.2 (by omega)

/-- A key that is listed lies within the bounds, and its value passes the check. -/
theorem lookupKey_some {l : List (Nat × α)} (hl : risingIn ok hi lo l = true) {a : Nat} {v : α}
    (h : lookupKey l a = some v) : lo ≤ a ∧ a < hi ∧ ok v = true := by
  induction l generalizing lo with
  | nil => simp at h
  | cons c rest ih =>
    obtain ⟨k, w⟩ := c
    rw [risingIn_cons] at hl
    rw [lookupKey_cons] at h
    split at h
    · cases h; subst_vars; exact ⟨hl.1, hl.2.1, hl.2.2.1⟩
    · have := ih hl.2.2.2 h
      exact ⟨by omega, this.2⟩

@[simp] theorem lookupKey_insertKey_same (l : List (Nat × α)) (a : Nat) (x : α) :
    lookupKey (insertKey l a x) a = some x := by
  induction l with
  | nil => simp [insertKey, lookupKey]
  | cons c rest ih =>
    obtain ⟨k, v⟩ := c
    unfold insertKey
    split
    · simp [lookupKey]
    · split
      · simp [lookupKey]
      · rw [lookupKey_cons, if_neg (by omega), ih]

theorem lookupKey_insertKey_other (l : List (Nat × α)) {a b : Nat} (x : α) (h : a ≠ b) :
    lookupKey (insertKey l a x) b = lookupKey l b := by
  induction l with
  | nil => simp [insertKey, lookupKey, h]
  | cons c rest ih =>
    obtain ⟨k, v⟩ := c
    unfold insertKey
    split
    · rw [lookupKey_cons, if_neg h]
    · split
      · subst_vars; rw [lookupKey_cons, if_neg h, lookupKey_cons, if_neg h]
      · rw [lookupKey_cons, lookupKey_cons, ih]

theorem lookupKey_eraseKey_same {l : List (Nat × α)} (hl : risingIn ok hi lo l = true) (a : Nat) :
    lookupKey (eraseKey l a) a = none := by
  induction l generalizing lo with
  | nil => rfl
  | cons c rest ih =>
    obtain ⟨k, v⟩ := c
    rw [risingIn_cons] at hl
    unfold eraseKey
    split
    · exact lookupKey_below hl.2.2.2 (by omega)
    · rw [lookupKey_cons, if_neg (by assumption)]
      exact ih hl.2.2.2

theorem lookupKey_eraseKey_other (l : List (Nat × α)) {a b : Nat} (h : a ≠ b) :
    lookupKey (eraseKey l a) b = lookupKey l b := by
  induction l with
  | nil => rfl
  | cons c rest ih =>
    obtain ⟨k, v⟩ := c
    unfold eraseKey
    split
    · rw [lookupKey_cons, if_neg (by omega)]
    · rw [lookupKey_cons, lookupKey_cons, ih]

theorem insertKey_rising {l : List (Nat × α)} (hl : risingIn ok hi lo l = true) {a : Nat} {x : α}
    (hlo : lo ≤ a) (hhi : a < hi) (hx : ok x = true) : risingIn ok hi lo (insertKey l a x) = true := by
  induction l generalizing lo with
  | nil => simp [insertKey, risingIn_cons, hlo, hhi, hx]
  | cons c rest ih =>
    obtain ⟨k, v⟩ := c
    rw [risingIn_cons] at hl
    unfold insertKey
    split
    · rw [risingIn_cons, risingIn_cons]
      exact ⟨hlo, hhi, hx, by omega, hl.2.1, hl.2.2.1, hl.2.2.2⟩
    · split
      · subst_vars
        rw [risingIn_cons]
        exact ⟨hlo, hhi, hx, hl.2.2.2⟩
      · rw [risingIn_cons]
        exact ⟨hl.1, hl.2.1, hl.2.2.1, ih hl.2.2.2 (by omega)⟩

theorem eraseKey_rising {l : List (Nat × α)} (hl : risingIn ok hi lo l = true) (a : Nat) :
    risingIn ok hi lo (eraseKey l a) = true := by
  induction l generalizing lo with
  | nil => simp [eraseKey]
  | cons c rest ih =>
    obtain ⟨k, v⟩ := c
    rw [risingIn_cons] at hl
    unfold eraseKey
    split
    · exact risingIn_mono (by omega) hl.2.2.2
    · rw [risingIn_cons]
      exact ⟨hl.1, hl.2.1, hl.2.2.1, ih hl.2.2.2⟩

/-! ### Pixel memory -/

@[simp] theorem Memory.read_nil (a : Nat) : Memory.read [] a = unwrittenByte := rfl

/-- A read after a write to the same byte gives the value written. -/
theorem Memory.read_write_same {m : Memory} (h : m.wf = true) (a : Nat) (v : Byte) : (m.write a v).read a = v := by
  unfold Memory.read Memory.write
  split
  · subst_vars; rw [lookupKey_eraseKey_same h a]; rfl
  · simp

/-- A write leaves every other byte alone. -/
theorem Memory.read_write_other (m : Memory) {a b : Nat} (v : Byte) (h : a ≠ b) :
    (m.write a v).read b = m.read b := by
  unfold Memory.read Memory.write
  split
  · rw [lookupKey_eraseKey_other m h]
  · rw [lookupKey_insertKey_other m v h]

/-- A write within the address space keeps the canonical form. -/
theorem Memory.write_wf {m : Memory} (h : m.wf = true) {a : Nat} (ha : a < Config.addressSpace) (v : Byte) :
    (m.write a v).wf = true := by
  unfold Memory.write
  split
  · exact eraseKey_rising h a
  · exact insertKey_rising h (Nat.zero_le _) ha (by simpa using ‹_›)

theorem Memory.wf_nil : Memory.wf [] = true := rfl

/-- A byte outside the address space reads as nothing written. -/
theorem Memory.read_outside {m : Memory} (h : m.wf = true) {a : Nat} (ha : Config.addressSpace ≤ a) :
    m.read a = unwrittenByte := by
  unfold Memory.read
  cases hk : lookupKey m a with
  | none => rfl
  | some v => have := (lookupKey_some h hk).2.1; omega

/-! ### The LUT RAMs -/

variable {w n : Nat}

@[simp] theorem Lut.entry_nil (i : Nat) : Lut.entry ([] : Lut w) i = none := rfl

@[simp] theorem Lut.entry_store_same (l : Lut w) (i : Nat) (v : BitVec w) : (l.store i v).entry i = some v :=
  lookupKey_insertKey_same l i v

theorem Lut.entry_store_other (l : Lut w) {i j : Nat} (v : BitVec w) (h : i ≠ j) :
    (l.store i v).entry j = l.entry j :=
  lookupKey_insertKey_other l v h

theorem Lut.store_wf {l : Lut w} (h : l.wf n = true) {i : Nat} (hi : i < n) (v : BitVec w) :
    (l.store i v).wf n = true :=
  insertKey_rising h (Nat.zero_le _) hi rfl

theorem Lut.wf_nil : Lut.wf n ([] : Lut w) = true := rfl

/-! ### What the engine's accesses can do -/

theorem admitsRead_lt {s : State} {a : Nat} (h : admitsRead s a = true) : a < Config.addressSpace := by
  simp [admitsRead] at h; exact h.1

theorem admitsWrite_lt {s : State} {a : Nat} (h : admitsWrite s a = true) : a < Config.addressSpace := by
  simp [admitsWrite] at h; exact h.1

/-- An engine read gives the byte at its address, and is admitted. -/
theorem engineRead_some {s : State} {a : Nat} {v : Byte} :
    engineRead s a = some v ↔ admitsRead s a = true ∧ v = s.mem.read a := by
  by_cases h : admitsRead s a = true
  · simp [engineRead, h, eq_comm]
  · simp [engineRead, h]

/-- An engine write stores one byte, and is admitted. -/
theorem engineWrite_some {s t : State} {a : Nat} {v : Byte} :
    engineWrite s a v = some t ↔
      admitsWrite s a = true ∧ t = { s with mem := s.mem.write a v, stale := (a, s.mem.read a) :: s.stale } := by
  by_cases h : admitsWrite s a = true
  · simp only [engineWrite, h, if_true, Option.some.injEq, true_and]
    exact eq_comm
  · simp [engineWrite, h]

end Sys2Proof.Machine
end

