-- ==== Sys2Proof/Laws/State.lean ====
section
/-! SUPPORT. One lemma per field per named update of the state, so that no proof unfolds an update again. -/

namespace Sys2Proof.Machine

/-! ### raiseError -/

@[simp] theorem raiseError_busy (s : State) (c : ErrCode) (n : BitVec 16) : (raiseError s c n).busy = s.busy := rfl
@[simp] theorem raiseError_cubeReady (s : State) (c : ErrCode) (n : BitVec 16) : (raiseError s c n).cubeReady = s.cubeReady := rfl
@[simp] theorem raiseError_err (s : State) (c : ErrCode) (n : BitVec 16) : (raiseError s c n).err = s.err.record c n := rfl
@[simp] theorem raiseError_done (s : State) (c : ErrCode) (n : BitVec 16) : (raiseError s c n).done = s.done := rfl
@[simp] theorem raiseError_doneIe (s : State) (c : ErrCode) (n : BitVec 16) : (raiseError s c n).doneIe = s.doneIe := rfl
@[simp] theorem raiseError_errIe (s : State) (c : ErrCode) (n : BitVec 16) : (raiseError s c n).errIe = s.errIe := rfl
@[simp] theorem raiseError_cfg (s : State) (c : ErrCode) (n : BitVec 16) : (raiseError s c n).cfg = s.cfg := rfl
@[simp] theorem raiseError_width (s : State) (c : ErrCode) (n : BitVec 16) : (raiseError s c n).width = s.width := rfl
@[simp] theorem raiseError_height (s : State) (c : ErrCode) (n : BitVec 16) : (raiseError s c n).height = s.height := rfl
@[simp] theorem raiseError_srcBase (s : State) (c : ErrCode) (n : BitVec 16) : (raiseError s c n).srcBase = s.srcBase := rfl
@[simp] theorem raiseError_srcStride (s : State) (c : ErrCode) (n : BitVec 16) : (raiseError s c n).srcStride = s.srcStride := rfl
@[simp] theorem raiseError_dstBase (s : State) (c : ErrCode) (n : BitVec 16) : (raiseError s c n).dstBase = s.dstBase := rfl
@[simp] theorem raiseError_dstStride (s : State) (c : ErrCode) (n : BitVec 16) : (raiseError s c n).dstStride = s.dstStride := rfl
@[simp] theorem raiseError_clutIndex (s : State) (c : ErrCode) (n : BitVec 16) : (raiseError s c n).clutIndex = s.clutIndex := rfl
@[simp] theorem raiseError_cubeIndex (s : State) (c : ErrCode) (n : BitVec 16) : (raiseError s c n).cubeIndex = s.cubeIndex := rfl
@[simp] theorem raiseError_clut (s : State) (c : ErrCode) (n : BitVec 16) : (raiseError s c n).clut = s.clut := rfl
@[simp] theorem raiseError_cube (s : State) (c : ErrCode) (n : BitVec 16) : (raiseError s c n).cube = s.cube := rfl
@[simp] theorem raiseError_curX (s : State) (c : ErrCode) (n : BitVec 16) : (raiseError s c n).curX = s.curX := rfl
@[simp] theorem raiseError_curY (s : State) (c : ErrCode) (n : BitVec 16) : (raiseError s c n).curY = s.curY := rfl
@[simp] theorem raiseError_inplace (s : State) (c : ErrCode) (n : BitVec 16) : (raiseError s c n).inplace = s.inplace := rfl
@[simp] theorem raiseError_mem (s : State) (c : ErrCode) (n : BitVec 16) : (raiseError s c n).mem = s.mem := rfl
@[simp] theorem raiseError_holes (s : State) (c : ErrCode) (n : BitVec 16) : (raiseError s c n).holes = s.holes := rfl
@[simp] theorem raiseError_stale (s : State) (c : ErrCode) (n : BitVec 16) : (raiseError s c n).stale = s.stale := rfl
@[simp] theorem raiseError_races (s : State) (c : ErrCode) (n : BitVec 16) : (raiseError s c n).races = s.races := rfl
@[simp] theorem raiseError_irqRose (s : State) (c : ErrCode) (n : BitVec 16) : (raiseError s c n).irqRose = s.irqRose := rfl
@[simp] theorem raiseError_reply (s : State) (c : ErrCode) (n : BitVec 16) : (raiseError s c n).reply = s.reply := rfl
@[simp] theorem raiseError_inbox (s : State) (c : ErrCode) (n : BitVec 16) : (raiseError s c n).inbox = s.inbox := rfl

/-! ### clearError -/

@[simp] theorem clearError_busy (s : State) : (clearError s).busy = s.busy := rfl
@[simp] theorem clearError_cubeReady (s : State) : (clearError s).cubeReady = s.cubeReady := rfl
@[simp] theorem clearError_err (s : State) : (clearError s).err = ⟨.noError, false, 0#16⟩ := rfl
@[simp] theorem clearError_done (s : State) : (clearError s).done = s.done := rfl
@[simp] theorem clearError_doneIe (s : State) : (clearError s).doneIe = s.doneIe := rfl
@[simp] theorem clearError_errIe (s : State) : (clearError s).errIe = s.errIe := rfl
@[simp] theorem clearError_cfg (s : State) : (clearError s).cfg = s.cfg := rfl
@[simp] theorem clearError_width (s : State) : (clearError s).width = s.width := rfl
@[simp] theorem clearError_height (s : State) : (clearError s).height = s.height := rfl
@[simp] theorem clearError_srcBase (s : State) : (clearError s).srcBase = s.srcBase := rfl
@[simp] theorem clearError_srcStride (s : State) : (clearError s).srcStride = s.srcStride := rfl
@[simp] theorem clearError_dstBase (s : State) : (clearError s).dstBase = s.dstBase := rfl
@[simp] theorem clearError_dstStride (s : State) : (clearError s).dstStride = s.dstStride := rfl
@[simp] theorem clearError_clutIndex (s : State) : (clearError s).clutIndex = s.clutIndex := rfl
@[simp] theorem clearError_cubeIndex (s : State) : (clearError s).cubeIndex = s.cubeIndex := rfl
@[simp] theorem clearError_clut (s : State) : (clearError s).clut = s.clut := rfl
@[simp] theorem clearError_cube (s : State) : (clearError s).cube = s.cube := rfl
@[simp] theorem clearError_curX (s : State) : (clearError s).curX = s.curX := rfl
@[simp] theorem clearError_curY (s : State) : (clearError s).curY = s.curY := rfl
@[simp] theorem clearError_inplace (s : State) : (clearError s).inplace = s.inplace := rfl
@[simp] theorem clearError_mem (s : State) : (clearError s).mem = s.mem := rfl
@[simp] theorem clearError_holes (s : State) : (clearError s).holes = s.holes := rfl
@[simp] theorem clearError_stale (s : State) : (clearError s).stale = s.stale := rfl
@[simp] theorem clearError_races (s : State) : (clearError s).races = s.races := rfl
@[simp] theorem clearError_irqRose (s : State) : (clearError s).irqRose = s.irqRose := rfl
@[simp] theorem clearError_reply (s : State) : (clearError s).reply = s.reply := rfl
@[simp] theorem clearError_inbox (s : State) : (clearError s).inbox = s.inbox := rfl

/-! ### emptyJob -/

@[simp] theorem emptyJob_busy (s : State) : (emptyJob s).busy = s.busy := rfl
@[simp] theorem emptyJob_cubeReady (s : State) : (emptyJob s).cubeReady = s.cubeReady := rfl
@[simp] theorem emptyJob_err (s : State) : (emptyJob s).err = s.err := rfl
@[simp] theorem emptyJob_done (s : State) : (emptyJob s).done = true := rfl
@[simp] theorem emptyJob_doneIe (s : State) : (emptyJob s).doneIe = s.doneIe := rfl
@[simp] theorem emptyJob_errIe (s : State) : (emptyJob s).errIe = s.errIe := rfl
@[simp] theorem emptyJob_cfg (s : State) : (emptyJob s).cfg = s.cfg := rfl
@[simp] theorem emptyJob_width (s : State) : (emptyJob s).width = s.width := rfl
@[simp] theorem emptyJob_height (s : State) : (emptyJob s).height = s.height := rfl
@[simp] theorem emptyJob_srcBase (s : State) : (emptyJob s).srcBase = s.srcBase := rfl
@[simp] theorem emptyJob_srcStride (s : State) : (emptyJob s).srcStride = s.srcStride := rfl
@[simp] theorem emptyJob_dstBase (s : State) : (emptyJob s).dstBase = s.dstBase := rfl
@[simp] theorem emptyJob_dstStride (s : State) : (emptyJob s).dstStride = s.dstStride := rfl
@[simp] theorem emptyJob_clutIndex (s : State) : (emptyJob s).clutIndex = s.clutIndex := rfl
@[simp] theorem emptyJob_cubeIndex (s : State) : (emptyJob s).cubeIndex = s.cubeIndex := rfl
@[simp] theorem emptyJob_clut (s : State) : (emptyJob s).clut = s.clut := rfl
@[simp] theorem emptyJob_cube (s : State) : (emptyJob s).cube = s.cube := rfl
@[simp] theorem emptyJob_curX (s : State) : (emptyJob s).curX = s.curX := rfl
@[simp] theorem emptyJob_curY (s : State) : (emptyJob s).curY = s.curY := rfl
@[simp] theorem emptyJob_inplace (s : State) : (emptyJob s).inplace = s.inplace := rfl
@[simp] theorem emptyJob_mem (s : State) : (emptyJob s).mem = s.mem := rfl
@[simp] theorem emptyJob_holes (s : State) : (emptyJob s).holes = s.holes := rfl
@[simp] theorem emptyJob_stale (s : State) : (emptyJob s).stale = s.stale := rfl
@[simp] theorem emptyJob_races (s : State) : (emptyJob s).races = s.races := rfl
@[simp] theorem emptyJob_irqRose (s : State) : (emptyJob s).irqRose = s.irqRose := rfl
@[simp] theorem emptyJob_reply (s : State) : (emptyJob s).reply = s.reply := rfl
@[simp] theorem emptyJob_inbox (s : State) : (emptyJob s).inbox = s.inbox := rfl

/-! ### acceptJob -/

@[simp] theorem acceptJob_busy (s : State) : (acceptJob s).busy = true := rfl
@[simp] theorem acceptJob_cubeReady (s : State) : (acceptJob s).cubeReady = s.cubeReady := rfl
@[simp] theorem acceptJob_err (s : State) : (acceptJob s).err = s.err := rfl
@[simp] theorem acceptJob_done (s : State) : (acceptJob s).done = false := rfl
@[simp] theorem acceptJob_doneIe (s : State) : (acceptJob s).doneIe = s.doneIe := rfl
@[simp] theorem acceptJob_errIe (s : State) : (acceptJob s).errIe = s.errIe := rfl
@[simp] theorem acceptJob_cfg (s : State) : (acceptJob s).cfg = s.cfg := rfl
@[simp] theorem acceptJob_width (s : State) : (acceptJob s).width = s.width := rfl
@[simp] theorem acceptJob_height (s : State) : (acceptJob s).height = s.height := rfl
@[simp] theorem acceptJob_srcBase (s : State) : (acceptJob s).srcBase = s.srcBase := rfl
@[simp] theorem acceptJob_srcStride (s : State) : (acceptJob s).srcStride = s.srcStride := rfl
@[simp] theorem acceptJob_dstBase (s : State) : (acceptJob s).dstBase = s.dstBase := rfl
@[simp] theorem acceptJob_dstStride (s : State) : (acceptJob s).dstStride = s.dstStride := rfl
@[simp] theorem acceptJob_clutIndex (s : State) : (acceptJob s).clutIndex = s.clutIndex := rfl
@[simp] theorem acceptJob_cubeIndex (s : State) : (acceptJob s).cubeIndex = s.cubeIndex := rfl
@[simp] theorem acceptJob_clut (s : State) : (acceptJob s).clut = s.clut := rfl
@[simp] theorem acceptJob_cube (s : State) : (acceptJob s).cube = s.cube := rfl
@[simp] theorem acceptJob_curX (s : State) : (acceptJob s).curX = 0#16 := rfl
@[simp] theorem acceptJob_curY (s : State) : (acceptJob s).curY = 0#16 := rfl
@[simp] theorem acceptJob_inplace (s : State) : (acceptJob s).inplace = isInplace s := rfl
@[simp] theorem acceptJob_mem (s : State) : (acceptJob s).mem = s.mem := rfl
@[simp] theorem acceptJob_holes (s : State) : (acceptJob s).holes = s.holes := rfl
@[simp] theorem acceptJob_stale (s : State) : (acceptJob s).stale = s.stale := rfl
@[simp] theorem acceptJob_races (s : State) : (acceptJob s).races = s.races := rfl
@[simp] theorem acceptJob_irqRose (s : State) : (acceptJob s).irqRose = s.irqRose := rfl
@[simp] theorem acceptJob_reply (s : State) : (acceptJob s).reply = s.reply := rfl
@[simp] theorem acceptJob_inbox (s : State) : (acceptJob s).inbox = s.inbox := rfl

/-! ### completeJob -/

@[simp] theorem completeJob_busy (s : State) : (completeJob s).busy = false := rfl
@[simp] theorem completeJob_cubeReady (s : State) : (completeJob s).cubeReady = s.cubeReady := rfl
@[simp] theorem completeJob_err (s : State) : (completeJob s).err = s.err := rfl
@[simp] theorem completeJob_done (s : State) : (completeJob s).done = true := rfl
@[simp] theorem completeJob_doneIe (s : State) : (completeJob s).doneIe = s.doneIe := rfl
@[simp] theorem completeJob_errIe (s : State) : (completeJob s).errIe = s.errIe := rfl
@[simp] theorem completeJob_cfg (s : State) : (completeJob s).cfg = s.cfg := rfl
@[simp] theorem completeJob_width (s : State) : (completeJob s).width = s.width := rfl
@[simp] theorem completeJob_height (s : State) : (completeJob s).height = s.height := rfl
@[simp] theorem completeJob_srcBase (s : State) : (completeJob s).srcBase = s.srcBase := rfl
@[simp] theorem completeJob_srcStride (s : State) : (completeJob s).srcStride = s.srcStride := rfl
@[simp] theorem completeJob_dstBase (s : State) : (completeJob s).dstBase = s.dstBase := rfl
@[simp] theorem completeJob_dstStride (s : State) : (completeJob s).dstStride = s.dstStride := rfl
@[simp] theorem completeJob_clutIndex (s : State) : (completeJob s).clutIndex = s.clutIndex := rfl
@[simp] theorem completeJob_cubeIndex (s : State) : (completeJob s).cubeIndex = s.cubeIndex := rfl
@[simp] theorem completeJob_clut (s : State) : (completeJob s).clut = s.clut := rfl
@[simp] theorem completeJob_cube (s : State) : (completeJob s).cube = s.cube := rfl
@[simp] theorem completeJob_curX (s : State) : (completeJob s).curX = s.curX := rfl
@[simp] theorem completeJob_curY (s : State) : (completeJob s).curY = s.curY := rfl
@[simp] theorem completeJob_inplace (s : State) : (completeJob s).inplace = s.inplace := rfl
@[simp] theorem completeJob_mem (s : State) : (completeJob s).mem = s.mem := rfl
@[simp] theorem completeJob_holes (s : State) : (completeJob s).holes = s.holes := rfl
@[simp] theorem completeJob_stale (s : State) : (completeJob s).stale = s.stale := rfl
@[simp] theorem completeJob_races (s : State) : (completeJob s).races = s.races := rfl
@[simp] theorem completeJob_irqRose (s : State) : (completeJob s).irqRose = s.irqRose := rfl
@[simp] theorem completeJob_reply (s : State) : (completeJob s).reply = s.reply := rfl
@[simp] theorem completeJob_inbox (s : State) : (completeJob s).inbox = s.inbox := rfl

/-! ### resetEvent -/

@[simp] theorem resetEvent_busy (s : State) : (resetEvent s).busy = State.reset.busy := rfl
@[simp] theorem resetEvent_cubeReady (s : State) : (resetEvent s).cubeReady = State.reset.cubeReady := rfl
@[simp] theorem resetEvent_err (s : State) : (resetEvent s).err = State.reset.err := rfl
@[simp] theorem resetEvent_done (s : State) : (resetEvent s).done = State.reset.done := rfl
@[simp] theorem resetEvent_doneIe (s : State) : (resetEvent s).doneIe = State.reset.doneIe := rfl
@[simp] theorem resetEvent_errIe (s : State) : (resetEvent s).errIe = State.reset.errIe := rfl
@[simp] theorem resetEvent_cfg (s : State) : (resetEvent s).cfg = State.reset.cfg := rfl
@[simp] theorem resetEvent_width (s : State) : (resetEvent s).width = State.reset.width := rfl
@[simp] theorem resetEvent_height (s : State) : (resetEvent s).height = State.reset.height := rfl
@[simp] theorem resetEvent_srcBase (s : State) : (resetEvent s).srcBase = State.reset.srcBase := rfl
@[simp] theorem resetEvent_srcStride (s : State) : (resetEvent s).srcStride = State.reset.srcStride := rfl
@[simp] theorem resetEvent_dstBase (s : State) : (resetEvent s).dstBase = State.reset.dstBase := rfl
@[simp] theorem resetEvent_dstStride (s : State) : (resetEvent s).dstStride = State.reset.dstStride := rfl
@[simp] theorem resetEvent_clutIndex (s : State) : (resetEvent s).clutIndex = State.reset.clutIndex := rfl
@[simp] theorem resetEvent_cubeIndex (s : State) : (resetEvent s).cubeIndex = State.reset.cubeIndex := rfl
@[simp] theorem resetEvent_clut (s : State) : (resetEvent s).clut = State.reset.clut := rfl
@[simp] theorem resetEvent_cube (s : State) : (resetEvent s).cube = State.reset.cube := rfl
@[simp] theorem resetEvent_curX (s : State) : (resetEvent s).curX = State.reset.curX := rfl
@[simp] theorem resetEvent_curY (s : State) : (resetEvent s).curY = State.reset.curY := rfl
@[simp] theorem resetEvent_inplace (s : State) : (resetEvent s).inplace = State.reset.inplace := rfl
@[simp] theorem resetEvent_mem (s : State) : (resetEvent s).mem = s.mem := rfl
@[simp] theorem resetEvent_holes (s : State) : (resetEvent s).holes = s.holes := rfl
@[simp] theorem resetEvent_stale (s : State) : (resetEvent s).stale = s.stale := rfl
@[simp] theorem resetEvent_races (s : State) : (resetEvent s).races = s.races := rfl
@[simp] theorem resetEvent_irqRose (s : State) : (resetEvent s).irqRose = State.reset.irqRose := rfl
@[simp] theorem resetEvent_reply (s : State) : (resetEvent s).reply = State.reset.reply := rfl
@[simp] theorem resetEvent_inbox (s : State) : (resetEvent s).inbox = s.inbox := rfl

/-! ### seeCompletion -/

@[simp] theorem seeCompletion_busy (s : State) : (seeCompletion s).busy = s.busy := by
  unfold seeCompletion; repeat' split
  all_goals rfl
@[simp] theorem seeCompletion_cubeReady (s : State) : (seeCompletion s).cubeReady = s.cubeReady := by
  unfold seeCompletion; repeat' split
  all_goals rfl
@[simp] theorem seeCompletion_err (s : State) : (seeCompletion s).err = s.err := by
  unfold seeCompletion; repeat' split
  all_goals rfl
@[simp] theorem seeCompletion_done (s : State) : (seeCompletion s).done = s.done := by
  unfold seeCompletion; repeat' split
  all_goals rfl
@[simp] theorem seeCompletion_doneIe (s : State) : (seeCompletion s).doneIe = s.doneIe := by
  unfold seeCompletion; repeat' split
  all_goals rfl
@[simp] theorem seeCompletion_errIe (s : State) : (seeCompletion s).errIe = s.errIe := by
  unfold seeCompletion; repeat' split
  all_goals rfl
@[simp] theorem seeCompletion_cfg (s : State) : (seeCompletion s).cfg = s.cfg := by
  unfold seeCompletion; repeat' split
  all_goals rfl
@[simp] theorem seeCompletion_width (s : State) : (seeCompletion s).width = s.width := by
  unfold seeCompletion; repeat' split
  all_goals rfl
@[simp] theorem seeCompletion_height (s : State) : (seeCompletion s).height = s.height := by
  unfold seeCompletion; repeat' split
  all_goals rfl
@[simp] theorem seeCompletion_srcBase (s : State) : (seeCompletion s).srcBase = s.srcBase := by
  unfold seeCompletion; repeat' split
  all_goals rfl
@[simp] theorem seeCompletion_srcStride (s : State) : (seeCompletion s).srcStride = s.srcStride := by
  unfold seeCompletion; repeat' split
  all_goals rfl
@[simp] theorem seeCompletion_dstBase (s : State) : (seeCompletion s).dstBase = s.dstBase := by
  unfold seeCompletion; repeat' split
  all_goals rfl
@[simp] theorem seeCompletion_dstStride (s : State) : (seeCompletion s).dstStride = s.dstStride := by
  unfold seeCompletion; repeat' split
  all_goals rfl
@[simp] theorem seeCompletion_clutIndex (s : State) : (seeCompletion s).clutIndex = s.clutIndex := by
  unfold seeCompletion; repeat' split
  all_goals rfl
@[simp] theorem seeCompletion_cubeIndex (s : State) : (seeCompletion s).cubeIndex = s.cubeIndex := by
  unfold seeCompletion; repeat' split
  all_goals rfl
@[simp] theorem seeCompletion_clut (s : State) : (seeCompletion s).clut = s.clut := by
  unfold seeCompletion; repeat' split
  all_goals rfl
@[simp] theorem seeCompletion_cube (s : State) : (seeCompletion s).cube = s.cube := by
  unfold seeCompletion; repeat' split
  all_goals rfl
@[simp] theorem seeCompletion_curX (s : State) : (seeCompletion s).curX = s.curX := by
  unfold seeCompletion; repeat' split
  all_goals rfl
@[simp] theorem seeCompletion_curY (s : State) : (seeCompletion s).curY = s.curY := by
  unfold seeCompletion; repeat' split
  all_goals rfl
@[simp] theorem seeCompletion_inplace (s : State) : (seeCompletion s).inplace = s.inplace := by
  unfold seeCompletion; repeat' split
  all_goals rfl
@[simp] theorem seeCompletion_mem (s : State) : (seeCompletion s).mem = s.mem := by
  unfold seeCompletion; repeat' split
  all_goals rfl
@[simp] theorem seeCompletion_holes (s : State) : (seeCompletion s).holes = s.holes := by
  unfold seeCompletion; repeat' split
  all_goals rfl
@[simp] theorem seeCompletion_races (s : State) : (seeCompletion s).races = s.races := by
  unfold seeCompletion; repeat' split
  all_goals rfl
@[simp] theorem seeCompletion_irqRose (s : State) : (seeCompletion s).irqRose = s.irqRose := by
  unfold seeCompletion; repeat' split
  all_goals rfl
@[simp] theorem seeCompletion_reply (s : State) : (seeCompletion s).reply = s.reply := by
  unfold seeCompletion; repeat' split
  all_goals rfl
@[simp] theorem seeCompletion_inbox (s : State) : (seeCompletion s).inbox = s.inbox := by
  unfold seeCompletion; repeat' split
  all_goals rfl

/-! ### settleIrq -/

@[simp] theorem settleIrq_busy (before s : State) : (settleIrq before s).busy = s.busy := by
  unfold settleIrq; repeat' split
  all_goals rfl
@[simp] theorem settleIrq_cubeReady (before s : State) : (settleIrq before s).cubeReady = s.cubeReady := by
  unfold settleIrq; repeat' split
  all_goals rfl
@[simp] theorem settleIrq_err (before s : State) : (settleIrq before s).err = s.err := by
  unfold settleIrq; repeat' split
  all_goals rfl
@[simp] theorem settleIrq_done (before s : State) : (settleIrq before s).done = s.done := by
  unfold settleIrq; repeat' split
  all_goals rfl
@[simp] theorem settleIrq_doneIe (before s : State) : (settleIrq before s).doneIe = s.doneIe := by
  unfold settleIrq; repeat' split
  all_goals rfl
@[simp] theorem settleIrq_errIe (before s : State) : (settleIrq before s).errIe = s.errIe := by
  unfold settleIrq; repeat' split
  all_goals rfl
@[simp] theorem settleIrq_cfg (before s : State) : (settleIrq before s).cfg = s.cfg := by
  unfold settleIrq; repeat' split
  all_goals rfl
@[simp] theorem settleIrq_width (before s : State) : (settleIrq before s).width = s.width := by
  unfold settleIrq; repeat' split
  all_goals rfl
@[simp] theorem settleIrq_height (before s : State) : (settleIrq before s).height = s.height := by
  unfold settleIrq; repeat' split
  all_goals rfl
@[simp] theorem settleIrq_srcBase (before s : State) : (settleIrq before s).srcBase = s.srcBase := by
  unfold settleIrq; repeat' split
  all_goals rfl
@[simp] theorem settleIrq_srcStride (before s : State) : (settleIrq before s).srcStride = s.srcStride := by
  unfold settleIrq; repeat' split
  all_goals rfl
@[simp] theorem settleIrq_dstBase (before s : State) : (settleIrq before s).dstBase = s.dstBase := by
  unfold settleIrq; repeat' split
  all_goals rfl
@[simp] theorem settleIrq_dstStride (before s : State) : (settleIrq before s).dstStride = s.dstStride := by
  unfold settleIrq; repeat' split
  all_goals rfl
@[simp] theorem settleIrq_clutIndex (before s : State) : (settleIrq before s).clutIndex = s.clutIndex := by
  unfold settleIrq; repeat' split
  all_goals rfl
@[simp] theorem settleIrq_cubeIndex (before s : State) : (settleIrq before s).cubeIndex = s.cubeIndex := by
  unfold settleIrq; repeat' split
  all_goals rfl
@[simp] theorem settleIrq_clut (before s : State) : (settleIrq before s).clut = s.clut := by
  unfold settleIrq; repeat' split
  all_goals rfl
@[simp] theorem settleIrq_cube (before s : State) : (settleIrq before s).cube = s.cube := by
  unfold settleIrq; repeat' split
  all_goals rfl
@[simp] theorem settleIrq_curX (before s : State) : (settleIrq before s).curX = s.curX := by
  unfold settleIrq; repeat' split
  all_goals rfl
@[simp] theorem settleIrq_curY (before s : State) : (settleIrq before s).curY = s.curY := by
  unfold settleIrq; repeat' split
  all_goals rfl
@[simp] theorem settleIrq_inplace (before s : State) : (settleIrq before s).inplace = s.inplace := by
  unfold settleIrq; repeat' split
  all_goals rfl
@[simp] theorem settleIrq_mem (before s : State) : (settleIrq before s).mem = s.mem := by
  unfold settleIrq; repeat' split
  all_goals rfl
@[simp] theorem settleIrq_holes (before s : State) : (settleIrq before s).holes = s.holes := by
  unfold settleIrq; repeat' split
  all_goals rfl
@[simp] theorem settleIrq_stale (before s : State) : (settleIrq before s).stale = s.stale := by
  unfold settleIrq; repeat' split
  all_goals rfl
@[simp] theorem settleIrq_races (before s : State) : (settleIrq before s).races = s.races := by
  unfold settleIrq; repeat' split
  all_goals rfl
@[simp] theorem settleIrq_reply (before s : State) : (settleIrq before s).reply = s.reply := by
  unfold settleIrq; repeat' split
  all_goals rfl
@[simp] theorem settleIrq_inbox (before s : State) : (settleIrq before s).inbox = s.inbox := by
  unfold settleIrq; repeat' split
  all_goals rfl

/-! ### hostSeesIrq -/

@[simp] theorem hostSeesIrq_busy (s : State) : (hostSeesIrq s).busy = s.busy := by
  unfold hostSeesIrq; split
  · exact seeCompletion_busy s
  · rfl
@[simp] theorem hostSeesIrq_cubeReady (s : State) : (hostSeesIrq s).cubeReady = s.cubeReady := by
  unfold hostSeesIrq; split
  · exact seeCompletion_cubeReady s
  · rfl
@[simp] theorem hostSeesIrq_err (s : State) : (hostSeesIrq s).err = s.err := by
  unfold hostSeesIrq; split
  · exact seeCompletion_err s
  · rfl
@[simp] theorem hostSeesIrq_done (s : State) : (hostSeesIrq s).done = s.done := by
  unfold hostSeesIrq; split
  · exact seeCompletion_done s
  · rfl
@[simp] theorem hostSeesIrq_doneIe (s : State) : (hostSeesIrq s).doneIe = s.doneIe := by
  unfold hostSeesIrq; split
  · exact seeCompletion_doneIe s
  · rfl
@[simp] theorem hostSeesIrq_errIe (s : State) : (hostSeesIrq s).errIe = s.errIe := by
  unfold hostSeesIrq; split
  · exact seeCompletion_errIe s
  · rfl
@[simp] theorem hostSeesIrq_cfg (s : State) : (hostSeesIrq s).cfg = s.cfg := by
  unfold hostSeesIrq; split
  · exact seeCompletion_cfg s
  · rfl
@[simp] theorem hostSeesIrq_width (s : State) : (hostSeesIrq s).width = s.width := by
  unfold hostSeesIrq; split
  · exact seeCompletion_width s
  · rfl
@[simp] theorem hostSeesIrq_height (s : State) : (hostSeesIrq s).height = s.height := by
  unfold hostSeesIrq; split
  · exact seeCompletion_height s
  · rfl
@[simp] theorem hostSeesIrq_srcBase (s : State) : (hostSeesIrq s).srcBase = s.srcBase := by
  unfold hostSeesIrq; split
  · exact seeCompletion_srcBase s
  · rfl
@[simp] theorem hostSeesIrq_srcStride (s : State) : (hostSeesIrq s).srcStride = s.srcStride := by
  unfold hostSeesIrq; split
  · exact seeCompletion_srcStride s
  · rfl
@[simp] theorem hostSeesIrq_dstBase (s : State) : (hostSeesIrq s).dstBase = s.dstBase := by
  unfold hostSeesIrq; split
  · exact seeCompletion_dstBase s
  · rfl
@[simp] theorem hostSeesIrq_dstStride (s : State) : (hostSeesIrq s).dstStride = s.dstStride := by
  unfold hostSeesIrq; split
  · exact seeCompletion_dstStride s
  · rfl
@[simp] theorem hostSeesIrq_clutIndex (s : State) : (hostSeesIrq s).clutIndex = s.clutIndex := by
  unfold hostSeesIrq; split
  · exact seeCompletion_clutIndex s
  · rfl
@[simp] theorem hostSeesIrq_cubeIndex (s : State) : (hostSeesIrq s).cubeIndex = s.cubeIndex := by
  unfold hostSeesIrq; split
  · exact seeCompletion_cubeIndex s
  · rfl
@[simp] theorem hostSeesIrq_clut (s : State) : (hostSeesIrq s).clut = s.clut := by
  unfold hostSeesIrq; split
  · exact seeCompletion_clut s
  · rfl
@[simp] theorem hostSeesIrq_cube (s : State) : (hostSeesIrq s).cube = s.cube := by
  unfold hostSeesIrq; split
  · exact seeCompletion_cube s
  · rfl
@[simp] theorem hostSeesIrq_curX (s : State) : (hostSeesIrq s).curX = s.curX := by
  unfold hostSeesIrq; split
  · exact seeCompletion_curX s
  · rfl
@[simp] theorem hostSeesIrq_curY (s : State) : (hostSeesIrq s).curY = s.curY := by
  unfold hostSeesIrq; split
  · exact seeCompletion_curY s
  · rfl
@[simp] theorem hostSeesIrq_inplace (s : State) : (hostSeesIrq s).inplace = s.inplace := by
  unfold hostSeesIrq; split
  · exact seeCompletion_inplace s
  · rfl
@[simp] theorem hostSeesIrq_mem (s : State) : (hostSeesIrq s).mem = s.mem := by
  unfold hostSeesIrq; split
  · exact seeCompletion_mem s
  · rfl
@[simp] theorem hostSeesIrq_holes (s : State) : (hostSeesIrq s).holes = s.holes := by
  unfold hostSeesIrq; split
  · exact seeCompletion_holes s
  · rfl
@[simp] theorem hostSeesIrq_races (s : State) : (hostSeesIrq s).races = s.races := by
  unfold hostSeesIrq; split
  · exact seeCompletion_races s
  · rfl
@[simp] theorem hostSeesIrq_irqRose (s : State) : (hostSeesIrq s).irqRose = s.irqRose := by
  unfold hostSeesIrq; split
  · exact seeCompletion_irqRose s
  · rfl
@[simp] theorem hostSeesIrq_reply (s : State) : (hostSeesIrq s).reply = s.reply := by
  unfold hostSeesIrq; split
  · exact seeCompletion_reply s
  · rfl
@[simp] theorem hostSeesIrq_inbox (s : State) : (hostSeesIrq s).inbox = s.inbox := by
  unfold hostSeesIrq; split
  · exact seeCompletion_inbox s
  · rfl

/-! ### advanceCursor -/

@[simp] theorem advanceCursor_cubeReady (s : State) : (advanceCursor s).cubeReady = s.cubeReady := by
  unfold advanceCursor; repeat' split
  all_goals rfl
@[simp] theorem advanceCursor_err (s : State) : (advanceCursor s).err = s.err := by
  unfold advanceCursor; repeat' split
  all_goals rfl
@[simp] theorem advanceCursor_doneIe (s : State) : (advanceCursor s).doneIe = s.doneIe := by
  unfold advanceCursor; repeat' split
  all_goals rfl
@[simp] theorem advanceCursor_errIe (s : State) : (advanceCursor s).errIe = s.errIe := by
  unfold advanceCursor; repeat' split
  all_goals rfl
@[simp] theorem advanceCursor_cfg (s : State) : (advanceCursor s).cfg = s.cfg := by
  unfold advanceCursor; repeat' split
  all_goals rfl
@[simp] theorem advanceCursor_width (s : State) : (advanceCursor s).width = s.width := by
  unfold advanceCursor; repeat' split
  all_goals rfl
@[simp] theorem advanceCursor_height (s : State) : (advanceCursor s).height = s.height := by
  unfold advanceCursor; repeat' split
  all_goals rfl
@[simp] theorem advanceCursor_srcBase (s : State) : (advanceCursor s).srcBase = s.srcBase := by
  unfold advanceCursor; repeat' split
  all_goals rfl
@[simp] theorem advanceCursor_srcStride (s : State) : (advanceCursor s).srcStride = s.srcStride := by
  unfold advanceCursor; repeat' split
  all_goals rfl
@[simp] theorem advanceCursor_dstBase (s : State) : (advanceCursor s).dstBase = s.dstBase := by
  unfold advanceCursor; repeat' split
  all_goals rfl
@[simp] theorem advanceCursor_dstStride (s : State) : (advanceCursor s).dstStride = s.dstStride := by
  unfold advanceCursor; repeat' split
  all_goals rfl
@[simp] theorem advanceCursor_clutIndex (s : State) : (advanceCursor s).clutIndex = s.clutIndex := by
  unfold advanceCursor; repeat' split
  all_goals rfl
@[simp] theorem advanceCursor_cubeIndex (s : State) : (advanceCursor s).cubeIndex = s.cubeIndex := by
  unfold advanceCursor; repeat' split
  all_goals rfl
@[simp] theorem advanceCursor_clut (s : State) : (advanceCursor s).clut = s.clut := by
  unfold advanceCursor; repeat' split
  all_goals rfl
@[simp] theorem advanceCursor_cube (s : State) : (advanceCursor s).cube = s.cube := by
  unfold advanceCursor; repeat' split
  all_goals rfl
@[simp] theorem advanceCursor_inplace (s : State) : (advanceCursor s).inplace = s.inplace := by
  unfold advanceCursor; repeat' split
  all_goals rfl
@[simp] theorem advanceCursor_mem (s : State) : (advanceCursor s).mem = s.mem := by
  unfold advanceCursor; repeat' split
  all_goals rfl
@[simp] theorem advanceCursor_holes (s : State) : (advanceCursor s).holes = s.holes := by
  unfold advanceCursor; repeat' split
  all_goals rfl
@[simp] theorem advanceCursor_stale (s : State) : (advanceCursor s).stale = s.stale := by
  unfold advanceCursor; repeat' split
  all_goals rfl
@[simp] theorem advanceCursor_races (s : State) : (advanceCursor s).races = s.races := by
  unfold advanceCursor; repeat' split
  all_goals rfl
@[simp] theorem advanceCursor_irqRose (s : State) : (advanceCursor s).irqRose = s.irqRose := by
  unfold advanceCursor; repeat' split
  all_goals rfl
@[simp] theorem advanceCursor_reply (s : State) : (advanceCursor s).reply = s.reply := by
  unfold advanceCursor; repeat' split
  all_goals rfl
@[simp] theorem advanceCursor_inbox (s : State) : (advanceCursor s).inbox = s.inbox := by
  unfold advanceCursor; repeat' split
  all_goals rfl

/-! ### seeCompletion, by BUSY -/

theorem seeCompletion_of_busy (s : State) (h : s.busy = true) : seeCompletion s = s := by
  simp [seeCompletion, h]

theorem seeCompletion_of_idle (s : State) (h : s.busy = false) : seeCompletion s = { s with stale := [] } := by
  simp [seeCompletion, h]

end Sys2Proof.Machine
end

