-- ==== Sys2Proof/Laws/Ops.lean ====
section
/-! SUPPORT. One lemma per shared operation that says all it can do, for proofs to cite instead of unfolding it. -/

namespace Sys2Proof.Machine

open Sys2Proof.Safety

/-! ### Ends of transactions, errors and the busy guard -/

@[simp] theorem endWrite_eq (s : State) : endWrite s = .next { s with reply := .nothing } := rfl

@[simp] theorem endRead_eq (s : State) (v : Word) : endRead s v = .next { s with reply := .word v } := rfl

/-- Recording an error, as R233 says it. -/
theorem record_eq (s : State) (c : ErrCode) (n : BitVec 16) : s.err.record c n = recordedError s c n := by
  unfold ErrRecord.record
  split <;> simp_all

@[simp] theorem refuseWrite_eq (s : State) (c : ErrCode) (n : BitVec 16) :
    refuseWrite s c n = .next { s with err := recordedError s c n, reply := .nothing } := by
  rw [← record_eq]; rfl

@[simp] theorem refuseRead_eq (s : State) (c : ErrCode) (n : BitVec 16) :
    refuseRead s c n = .next { s with err := recordedError s c n, reply := .word 0#32 } := by
  rw [← record_eq]; rfl

@[simp] theorem refuseBadReg_eq (s : State) (off : Offset) :
    refuseBadReg s off = .next { s with err := recordedError s .badReg (off.zeroExtend 16), reply := .nothing } :=
  refuseWrite_eq s _ _

theorem guardWrite_busy {s : State} (h : s.busy = true) (off : Offset) (r : Result) :
    guardWrite s off r = .next { s with err := recordedError s .busy (off.zeroExtend 16), reply := .nothing } := by
  simp [guardWrite, h]

theorem guardWrite_idle {s : State} (h : s.busy = false) (off : Offset) (r : Result) : guardWrite s off r = r := by
  simp [guardWrite, h]

theorem guardRead_busy {s : State} (h : s.busy = true) (off : Offset) (r : Result) :
    guardRead s off r = .next { s with err := recordedError s .busy (off.zeroExtend 16), reply := .word 0#32 } := by
  simp [guardRead, h]

theorem guardRead_idle {s : State} (h : s.busy = false) (off : Offset) (r : Result) : guardRead s off r = r := by
  simp [guardRead, h]

/-- A guarded write that answers `t` was refused while BUSY = 1, or had its own result while BUSY = 0. -/
theorem guardWrite_next {s t : State} {off : Offset} {r : Result} (h : guardWrite s off r = .next t) :
    (s.busy = true ∧ t = { s with err := recordedError s .busy (off.zeroExtend 16), reply := .nothing }) ∨
      (s.busy = false ∧ r = .next t) := by
  by_cases hb : s.busy = true
  · rw [guardWrite_busy hb] at h; exact .inl ⟨hb, (Host.Outcome.next.inj h).symm⟩
  · have hb := Bool.eq_false_iff.mpr hb
    rw [guardWrite_idle hb] at h; exact .inr ⟨hb, h⟩

/-- A guarded read that answers `t` was refused while BUSY = 1, or had its own result while BUSY = 0. -/
theorem guardRead_next {s t : State} {off : Offset} {r : Result} (h : guardRead s off r = .next t) :
    (s.busy = true ∧ t = { s with err := recordedError s .busy (off.zeroExtend 16), reply := .word 0#32 }) ∨
      (s.busy = false ∧ r = .next t) := by
  by_cases hb : s.busy = true
  · rw [guardRead_busy hb] at h; exact .inl ⟨hb, (Host.Outcome.next.inj h).symm⟩
  · have hb := Bool.eq_false_iff.mpr hb
    rw [guardRead_idle hb] at h; exact .inr ⟨hb, h⟩

/-! ### START -/

/-- The five ways in which START can go (R165). -/
theorem startJob_cases (s : State) :
    (s.busy = true ∧ startJob s = .next { s with err := recordedError s .busy 0x0004#16, reply := .nothing }) ∨
    (s.busy = false ∧ s.cfg.mode = .cube ∧ s.cubeReady = false ∧
      startJob s = .next { s with err := recordedError s .cubeNotReady 0#16, reply := .nothing }) ∨
    (s.busy = false ∧ (s.cfg.mode = .cube → s.cubeReady = true) ∧ emptyFrame s = true ∧
      startJob s = .next { s with done := true, reply := .nothing }) ∨
    (s.busy = false ∧ (s.cfg.mode = .cube → s.cubeReady = true) ∧ emptyFrame s = false ∧
      ∃ c n, geometryError s = some (c, n) ∧
        startJob s = .next { s with err := recordedError s c n, reply := .nothing }) ∨
    (s.busy = false ∧ (s.cfg.mode = .cube → s.cubeReady = true) ∧ emptyFrame s = false ∧ geometryError s = none ∧
      startJob s = .next { acceptJob s with reply := .nothing }) := by
  by_cases hb : s.busy = true
  · exact .inl ⟨hb, by unfold startJob; rw [guardWrite_busy hb]; rfl⟩
  · have hb := Bool.eq_false_iff.mpr hb
    have hs : ∀ r, guardWrite s 0x004#12 r = r := guardWrite_idle hb _
    by_cases hc : s.cfg.mode = .cube ∧ s.cubeReady = false
    · exact .inr (.inl ⟨hb, hc.1, hc.2, by simp only [startJob, hs, if_pos hc, refuseWrite_eq]⟩)
    · have hr : s.cfg.mode = .cube → s.cubeReady = true := by
        intro hm; by_contra hn; exact hc ⟨hm, by simpa using hn⟩
      by_cases he : emptyFrame s = true
      · refine .inr (.inr (.inl ⟨hb, hr, he, ?_⟩))
        simp only [startJob, hs, if_neg hc, if_pos he]; rfl
      · have he' := Bool.eq_false_iff.mpr he
        cases hg : geometryError s with
        | none =>
          refine .inr (.inr (.inr (.inr ⟨hb, hr, he', rfl, ?_⟩)))
          simp only [startJob, hs, if_neg hc, if_neg he, hg, endWrite_eq]
        | some e =>
          refine .inr (.inr (.inr (.inl ⟨hb, hr, he', e.1, e.2, rfl, ?_⟩)))
          simp only [startJob, hs, if_neg hc, if_neg he, hg, refuseWrite_eq]

/-! ### The engine -/

/-- The three ways in which the cursor advances (R176). -/
theorem advanceCursor_cases (s : State) :
    (s.curX.toNat + 1 < s.width.toNat ∧ advanceCursor s = { s with curX := s.curX + 1#16 }) ∨
    (s.width.toNat ≤ s.curX.toNat + 1 ∧ s.curY.toNat + 1 < s.height.toNat ∧
      advanceCursor s = { s with curX := 0#16, curY := s.curY + 1#16 }) ∨
    (s.width.toNat ≤ s.curX.toNat + 1 ∧ s.height.toNat ≤ s.curY.toNat + 1 ∧
      advanceCursor s = { s with curX := 0#16, busy := false, done := true }) := by
  unfold advanceCursor
  split
  · exact .inl ⟨‹_›, rfl⟩
  · split
    · exact .inr (.inl ⟨by omega, ‹_›, rfl⟩)
    · exact .inr (.inr ⟨by omega, by omega, rfl⟩)

/-- A selected pixel is the triple of source bytes as memory stands (R190). -/
theorem selectPixel_some {s : State} {p : Nat} {q : Rgb} (h : selectPixel s p = some q) :
    q = ⟨s.mem.read (p + (layoutOf s.cfg.fmt).rOff), s.mem.read (p + (layoutOf s.cfg.fmt).gOff),
      s.mem.read (p + (layoutOf s.cfg.fmt).bOff)⟩ := by
  simp only [selectPixel] at h
  split at h
  · rename_i h1 h2 h3
    rw [engineRead_some] at h1 h2 h3
    cases h
    rw [h1.2, h2.2, h3.2]
  · cases h

/-- The packer stores the three lanes, at admitted addresses, and changes nothing else but the record of the bytes
that stood there (R197). -/
theorem packPixel_some {s t : State} {d : Nat} {q : Rgb} (h : packPixel s d q = some t) :
    admitsWrite s (d + (layoutOf s.cfg.fmt).rOff) = true ∧ admitsWrite s (d + (layoutOf s.cfg.fmt).gOff) = true ∧
      admitsWrite s (d + (layoutOf s.cfg.fmt).bOff) = true ∧
      t = { s with
        mem := ((s.mem.write (d + (layoutOf s.cfg.fmt).rOff) q.r).write (d + (layoutOf s.cfg.fmt).gOff) q.g).write
          (d + (layoutOf s.cfg.fmt).bOff) q.b,
        stale := t.stale } := by
  simp only [packPixel, Option.bind_eq_some_iff] at h
  obtain ⟨s1, h1, s2, h2, h3⟩ := h
  rw [engineWrite_some] at h1 h2 h3
  obtain ⟨a1, rfl⟩ := h1
  obtain ⟨a2, rfl⟩ := h2
  obtain ⟨a3, rfl⟩ := h3
  exact ⟨a1, a2, a3, rfl⟩

/-- The fourth byte is read where it is copied, at an admitted address (R198). -/
theorem readFourth_some {s : State} {p : Nat} {a : Option Byte} (h : readFourth s p = some a) :
    (copiesFourth s = true ∧ a = some (s.mem.read (p + (layoutOf s.cfg.fmt).aOff))) ∨
      (copiesFourth s = false ∧ a = none) := by
  unfold readFourth at h
  split at h
  · simp only [Option.map_eq_some_iff] at h
    obtain ⟨v, hv, rfl⟩ := h
    rw [engineRead_some] at hv
    exact .inl ⟨‹_›, by rw [hv.2]⟩
  · cases h
    exact .inr ⟨by simp_all, rfl⟩

/-- The fourth byte is written, at an admitted address, where one was read (R198). -/
theorem writeFourth_some {s t : State} {d : Nat} {a : Option Byte} (h : writeFourth s d a = some t) :
    (∃ v, a = some v ∧ admitsWrite s (d + (layoutOf s.cfg.fmt).aOff) = true ∧
      t = { s with mem := s.mem.write (d + (layoutOf s.cfg.fmt).aOff) v, stale := t.stale }) ∨ (a = none ∧ t = s) := by
  cases a with
  | none => cases h; exact .inr ⟨rfl, rfl⟩
  | some v =>
    simp only [writeFourth, engineWrite_some] at h
    obtain ⟨ha, rfl⟩ := h
    exact .inl ⟨v, rfl, ha, rfl⟩

/-- A pixel step that answers `t` read its triple, found its LUT entries, and wrote them and, where it is copied, the
fourth byte; nothing else changes but the record of the bytes that stood there (R191). -/
theorem pixelStep_next {s t : State} (h : pixelStep s = .next t) :
    ∃ q u a, remap s (sourceRgb s s.curX.toNat s.curY.toNat) = some q ∧
      readFourth s (srcPx s s.curX.toNat s.curY.toNat) = some a ∧
      packPixel s (dstPx s s.curX.toNat s.curY.toNat) q = some u ∧
      writeFourth u (dstPx s s.curX.toNat s.curY.toNat) a = some t ∧
      t = { s with mem := t.mem, stale := t.stale } := by
  simp only [pixelStep] at h
  split at h
  · rename_i p a hp ha
    have hp' := selectPixel_some hp
    split at h
    · rename_i q hq
      split at h
      · rename_i t' ht
        cases h
        obtain ⟨u, hu, ht⟩ := Option.bind_eq_some_iff.mp ht
        refine ⟨q, u, a, by rw [← hq, hp']; rfl, ha, hu, ht, ?_⟩
        obtain ⟨-, -, -, hu⟩ := packPixel_some hu
        obtain ⟨v, -, -, ht⟩ | ⟨-, ht⟩ := writeFourth_some ht
        · rw [ht, hu]
        · rw [ht, hu]
      · cases h
    · cases h
  · cases h

/-- An engine step that answers `t` is a pixel step and the cursor's advance (R174). -/
theorem engineStep_next {s t : State} (h : engineStep s = .next t) :
    ∃ u, pixelStep s = .next u ∧ t = advanceCursor u := by
  unfold engineStep at h
  split at h
  · rename_i u hu; cases h; exact ⟨u, hu, rfl⟩
  · cases h
  · cases h

/-! ### Host accesses to pixel memory -/

/-- Where a host write falls among the engine's unordered writes of its byte: last, or before one of them. Either way
only that byte and its record can change (R74). -/
theorem placeHostWrite_cases (s : State) (a : Nat) (v : Byte) (late : List Host.Cell) (n : Nat) :
    (n = 0 ∧ placeHostWrite s a v late n =
      { s with mem := s.mem.write a v, stale := s.stale.filter fun c => c.1 != a }) ∨
    (∃ k, n = k + 1 ∧ placeHostWrite s a v late n =
      { s with stale := late.take k ++ (a, v) :: s.stale.filter fun c => c.1 != a }) := by
  cases n with
  | zero => exact .inl ⟨rfl, rfl⟩
  | succ k => exact .inr ⟨k, rfl, rfl⟩

/-- A byte with no record has no unordered write. -/
theorem unorderedAt_eq_nil {s : State} {a : Nat} : unorderedAt s a = [] ↔ ∀ b, (a, b) ∉ s.stale := by
  simp only [unorderedAt, List.filter_eq_nil_iff, beq_iff_eq, Prod.forall]
  exact ⟨fun h b hb => h a b hb rfl, fun h a' b hb e => h b (e ▸ hb)⟩

/-- Where no write of the byte is unordered, a host write stores its byte and changes nothing else. -/
theorem landHostWrite_ordered {s : State} {a : Nat} (h : unorderedAt s a = []) (v : Byte) :
    landHostWrite s a v = { s with mem := s.mem.write a v } := by
  unfold landHostWrite
  rw [h]

/-- A host write lands last and stores its byte, or it lands before a job's write of the byte, which then stands, and is
what that write has overwritten; it changes nothing but memory and the records of the race (R74). -/
theorem landHostWrite_cases (s : State) (a : Nat) (v : Byte) :
    ((landHostWrite s a v).mem = s.mem.write a v ∨
      (unorderedAt s a ≠ [] ∧ (landHostWrite s a v).mem = s.mem ∧ (a, v) ∈ (landHostWrite s a v).stale)) ∧
    landHostWrite s a v = { s with
      mem := (landHostWrite s a v).mem, stale := (landHostWrite s a v).stale, races := (landHostWrite s a v).races } := by
  unfold landHostWrite
  cases hu : unorderedAt s a with
  | nil => exact ⟨.inl rfl, rfl⟩
  | cons c rest =>
    obtain ⟨-, e⟩ | ⟨k, -, e⟩ := placeHostWrite_cases s a v (c :: rest) (Config.raceChoice s.races % (rest.length + 2))
    · simp only [e]
      exact ⟨.inl trivial, trivial⟩
    · simp only [e]
      exact ⟨.inr ⟨List.cons_ne_nil _ _, trivial, List.mem_append_right _ (List.mem_cons_self ..)⟩, trivial⟩

/-- A host write that answers `t` stays outside a running job's extents, and lands (R75). -/
theorem hostWriteByte_next {s t : State} {addr : Word} {v : Byte} (h : hostWriteByte s addr v = .next t) :
    ¬(s.busy = true ∧ inExtents s addr.toNat = true) ∧
      t = { landHostWrite s addr.toNat v with reply := .nothing } := by
  unfold hostWriteByte at h
  split at h
  · cases h
  · rename_i hb
    exact ⟨by simpa using hb, (Host.Outcome.next.inj h).symm⟩

/-- A host read changes the reply and the count of races, and nothing else (R74). -/
theorem hostReadByte_frame (s : State) (addr : Word) :
    hostReadByte s addr = { s with reply := (hostReadByte s addr).reply, races := (hostReadByte s addr).races } := by
  simp only [hostReadByte]
  split <;> rfl

/-! ### The record of the irq line -/

/-- The record of the irq line is all that `settleIrq` changes. -/
theorem settleIrq_frame (s t : State) : settleIrq s t = { t with irqRose := (settleIrq s t).irqRose } := by
  unfold settleIrq
  split <;> rfl

/-- Where DONE did not begin to drive irq, there is nothing to record. -/
theorem settleIrq_of_not {s t : State} (h : doneDrives t = true → doneDrives s = true) : settleIrq s t = t := by
  unfold settleIrq
  split
  · simp_all
  · rfl

@[simp] theorem settle_next (s t : State) : settle s (.next t) = .next (settleIrq s t) := rfl

@[simp] theorem settle_fault (s : State) (e : Fault) : settle s (.fault e) = .fault e := rfl

@[simp] theorem settle_refused (s : State) (e : Refusal) : settle s (.refused e) = .refused e := rfl

/-- A settled outcome that answers `t` is a next state with its irq line recorded. -/
theorem settle_eq_next {s t : State} {r : Result} (h : settle s r = .next t) :
    ∃ u, r = .next u ∧ t = settleIrq s u := by
  cases r with
  | next u => exact ⟨u, rfl, (Host.Outcome.next.inj h).symm⟩
  | fault e => cases h
  | refused e => cases h

/-! ### Steps and runs -/

theorem step_event {s : State} {e : Event} {rest : List Event} (h : s.inbox = e :: rest) :
    step s = settle { s with inbox := rest } (runEvent e { s with inbox := rest }) := by
  simp only [step, takeEvent, h]

theorem step_noEvent {s : State} (h : s.inbox = []) : step s = settle s (engineTurn s) := by
  simp only [step, takeEvent, h, runEvent]

@[simp] theorem runFor_zero (s : State) : runFor 0 s = .next s := rfl

theorem runFor_succ_next {k : Nat} {s t : State} (h : step s = .next t) : runFor (k + 1) s = runFor k t := by
  have h' : Sys2Proof.core.step s = .next t := h
  simp only [runFor, Host.Core.run, h']
  rfl

end Sys2Proof.Machine
end

