-- ==== Sys2Proof/Laws/PerInstr.lean ====
section
/-! SUPPORT. The per-instruction family of LAWS.json, about the instructions as syntax: each well-formed instruction's
word hits the row of the opcode table that stands for it, and that row reads the instruction back (30_encoding.md
R93). That no earlier row hits it is an obligation's business. -/

namespace Sys2Proof.Laws

/-- The mask of a register row keeps WE, RSV and OFFSET and drops WDATA. -/
theorem packHtw_and_registerMask (we : Bool) (rsv : BitVec 3) (off : Offset) (d : Word) :
    packHtw we rsv off d &&& 0xFFFF00000000#48 = packHtw we rsv off 0#32 := by
  apply BitVec.eq_of_getLsbD_eq
  intro i hi
  have hm : (0xFFFF00000000#48).getLsbD i = decide (32 ≤ i) := by
    revert i
    decide
  rw [BitVec.getLsbD_and, hm, packHtw_getLsbD, packHtw_getLsbD]
  by_cases h : i < 32
  · simp [h]
  · simp [h, show 32 ≤ i by omega]

/-- The mask of the two unmapped rows keeps WE. -/
theorem packHtw_and_weMask (we : Bool) (rsv : BitVec 3) (off : Offset) (d : Word) :
    packHtw we rsv off d &&& 0x800000000000#48 = packHtw we 0#3 0#12 0#32 := by
  apply BitVec.eq_of_getLsbD_eq
  intro i hi
  have hm : (0x800000000000#48).getLsbD i = decide (47 ≤ i) := by
    revert i
    decide
  rw [BitVec.getLsbD_and, hm, packHtw_getLsbD, packHtw_getLsbD]
  by_cases h : i < 47
  · simp [h, show ¬47 ≤ i by omega]
  · simp [h, show 47 ≤ i by omega, show ¬i < 32 by omega, show ¬i < 44 by omega]

/-- A write's word hits the write row of its register, which reads its WDATA back. -/
theorem writeRow_reads_encodeWrite (off : Offset) (d : Word) (i : Word → Instr) (m : Htw)
    (hm : packHtw true 0#3 off 0#32 = m) :
    (writeRow m i).hits (encodeWrite off d) = true ∧ (writeRow m i).build (encodeWrite off d) = i d := by
  refine ⟨?_, ?_⟩
  · show (packHtw true 0#3 off d &&& 0xFFFF00000000#48 == m) = true
    rw [packHtw_and_registerMask, hm, beq_self_eq_true]
  · show i (htwWdata (packHtw true 0#3 off d)) = i d
    rw [htwWdata_packHtw]

/-- An RSV row is hit where its one bit is set (R88). -/
theorem hits_rsvBit {w : Htw} {k : Nat} (hw : w.getLsbD k = true) (b : Htw → Instr) :
    (TableRow.mk (BitVec.twoPow 48 k) (BitVec.twoPow 48 k) b).hits w = true := by
  show (w &&& BitVec.twoPow 48 k == BitVec.twoPow 48 k) = true
  rw [BitVec.and_twoPow, if_pos hw, beq_self_eq_true]

/-- The RSV field of a packed word, bit by bit (R85). -/
theorem packHtw_rsvBit (we : Bool) (rsv : BitVec 3) (off : Offset) (d : Word) {k : Nat} (hk : k < 3) :
    (packHtw we rsv off d).getLsbD (44 + k) = rsv.getLsbD k := by
  rw [packHtw_getLsbD, if_neg (by omega), if_neg (by omega), if_pos (by omega), Nat.add_sub_cancel_left]

/-- The low RSV bits of a packed word (R85). -/
theorem packHtw_rsvLow (we : Bool) (rsv : BitVec 3) (off : Offset) (d : Word) {n : Nat} (hn : n ≤ 3)
    {low : BitVec n} (h : ∀ i, i < n → rsv.getLsbD i = low.getLsbD i) :
    (packHtw we rsv off d).extractLsb' 44 n = low := by
  apply BitVec.eq_of_getLsbD_eq
  intro i hi
  rw [BitVec.getLsbD_extractLsb', decide_eq_true hi, Bool.true_and, packHtw_rsvBit _ _ _ _ (by omega), h i hi]

/-- A well-formed instruction's word hits a row of the opcode table that reads the instruction back. -/
def EncodeMatchesRow.Statement (i : Instr) : Prop :=
  i.wf = true → ∃ r ∈ tableRows, r.hits (encode i) = true ∧ r.build (encode i) = i

theorem EncodeMatchesRow.rsvRefusedB46 (we : Bool) (low : BitVec 2) (off : Offset) (d : Word) :
    Statement (.rsvRefusedB46 we low off d) := by
  have hlow : ∀ i, i < 2 → (1#1 ++ low : BitVec (1 + 2)).getLsbD i = low.getLsbD i := fun i hi => by
    rw [BitVec.getLsbD_append, if_pos hi]
  have hbit : (1#1 ++ low : BitVec (1 + 2)).getLsbD 2 = true := by rw [BitVec.getLsbD_append]; rfl
  refine fun _ => ⟨tableRows[0], List.getElem_mem _,
    hits_rsvBit (k := 46) ((packHtw_rsvBit we _ off d (by omega : 2 < 3)).trans hbit) _, ?_⟩
  show Instr.rsvRefusedB46 (htwWe (packHtw we _ off d)) ((packHtw we _ off d).extractLsb' 44 2)
    (htwOffset (packHtw we _ off d)) (htwWdata (packHtw we _ off d)) = _
  rw [htwWe_packHtw, htwOffset_packHtw, htwWdata_packHtw, packHtw_rsvLow we _ off d (by omega) hlow]

theorem EncodeMatchesRow.rsvRefusedB45 (we : Bool) (low : BitVec 1) (off : Offset) (d : Word) :
    Statement (.rsvRefusedB45 we low off d) := by
  have hlow : ∀ i, i < 1 → (1#2 ++ low : BitVec (2 + 1)).getLsbD i = low.getLsbD i := fun i hi => by
    rw [BitVec.getLsbD_append, if_pos hi]
  have hbit : (1#2 ++ low : BitVec (2 + 1)).getLsbD 1 = true := by rw [BitVec.getLsbD_append]; rfl
  refine fun _ => ⟨tableRows[1], List.getElem_mem _,
    hits_rsvBit (k := 45) ((packHtw_rsvBit we _ off d (by omega : 1 < 3)).trans hbit) _, ?_⟩
  show Instr.rsvRefusedB45 (htwWe (packHtw we _ off d)) ((packHtw we _ off d).extractLsb' 44 1)
    (htwOffset (packHtw we _ off d)) (htwWdata (packHtw we _ off d)) = _
  rw [htwWe_packHtw, htwOffset_packHtw, htwWdata_packHtw, packHtw_rsvLow we _ off d (by omega) hlow]

theorem EncodeMatchesRow.rsvRefusedB44 (we : Bool) (off : Offset) (d : Word) :
    Statement (.rsvRefusedB44 we off d) := by
  refine fun _ => ⟨tableRows[2], List.getElem_mem _,
    hits_rsvBit (k := 44) (packHtw_rsvBit we _ off d (by omega : 0 < 3)) _, ?_⟩
  show Instr.rsvRefusedB44 (htwWe (packHtw we _ off d)) (htwOffset (packHtw we _ off d))
    (htwWdata (packHtw we _ off d)) = _
  rw [htwWe_packHtw, htwOffset_packHtw, htwWdata_packHtw]

theorem EncodeMatchesRow.rdId : Statement .rdId :=
  fun _ => ⟨tableRows[3], List.getElem_mem _, by decide, rfl⟩

theorem EncodeMatchesRow.rdCmd : Statement .rdCmd :=
  fun _ => ⟨tableRows[4], List.getElem_mem _, by decide, rfl⟩

theorem EncodeMatchesRow.rdStatus : Statement .rdStatus :=
  fun _ => ⟨tableRows[5], List.getElem_mem _, by decide, rfl⟩

theorem EncodeMatchesRow.rdErr : Statement .rdErr :=
  fun _ => ⟨tableRows[6], List.getElem_mem _, by decide, rfl⟩

theorem EncodeMatchesRow.rdIntStatus : Statement .rdIntStatus :=
  fun _ => ⟨tableRows[7], List.getElem_mem _, by decide, rfl⟩

theorem EncodeMatchesRow.rdIntEnable : Statement .rdIntEnable :=
  fun _ => ⟨tableRows[8], List.getElem_mem _, by decide, rfl⟩

theorem EncodeMatchesRow.rdCfg : Statement .rdCfg :=
  fun _ => ⟨tableRows[9], List.getElem_mem _, by decide, rfl⟩

theorem EncodeMatchesRow.rdWidth : Statement .rdWidth :=
  fun _ => ⟨tableRows[10], List.getElem_mem _, by decide, rfl⟩

theorem EncodeMatchesRow.rdHeight : Statement .rdHeight :=
  fun _ => ⟨tableRows[11], List.getElem_mem _, by decide, rfl⟩

theorem EncodeMatchesRow.rdSrcBase : Statement .rdSrcBase :=
  fun _ => ⟨tableRows[12], List.getElem_mem _, by decide, rfl⟩

theorem EncodeMatchesRow.rdSrcStride : Statement .rdSrcStride :=
  fun _ => ⟨tableRows[13], List.getElem_mem _, by decide, rfl⟩

theorem EncodeMatchesRow.rdDstBase : Statement .rdDstBase :=
  fun _ => ⟨tableRows[14], List.getElem_mem _, by decide, rfl⟩

theorem EncodeMatchesRow.rdDstStride : Statement .rdDstStride :=
  fun _ => ⟨tableRows[15], List.getElem_mem _, by decide, rfl⟩

theorem EncodeMatchesRow.rdClutIndex : Statement .rdClutIndex :=
  fun _ => ⟨tableRows[16], List.getElem_mem _, by decide, rfl⟩

theorem EncodeMatchesRow.rdClutData : Statement .rdClutData :=
  fun _ => ⟨tableRows[17], List.getElem_mem _, by decide, rfl⟩

theorem EncodeMatchesRow.rdCubeIndex : Statement .rdCubeIndex :=
  fun _ => ⟨tableRows[18], List.getElem_mem _, by decide, rfl⟩

theorem EncodeMatchesRow.rdCubeData : Statement .rdCubeData :=
  fun _ => ⟨tableRows[19], List.getElem_mem _, by decide, rfl⟩

theorem EncodeMatchesRow.rdLayout : Statement .rdLayout :=
  fun _ => ⟨tableRows[20], List.getElem_mem _, by decide, rfl⟩

theorem EncodeMatchesRow.wrId (d : Word) : Statement (.wrId d) :=
  fun _ => ⟨tableRows[21], List.getElem_mem _, writeRow_reads_encodeWrite _ d .wrId _ (by decide)⟩

theorem EncodeMatchesRow.wrStatus (d : Word) : Statement (.wrStatus d) :=
  fun _ => ⟨tableRows[22], List.getElem_mem _, writeRow_reads_encodeWrite _ d .wrStatus _ (by decide)⟩

theorem EncodeMatchesRow.wrErr (d : Word) : Statement (.wrErr d) :=
  fun _ => ⟨tableRows[23], List.getElem_mem _, writeRow_reads_encodeWrite _ d .wrErr _ (by decide)⟩

theorem EncodeMatchesRow.wrIntStatus (d : Word) : Statement (.wrIntStatus d) :=
  fun _ => ⟨tableRows[24], List.getElem_mem _, writeRow_reads_encodeWrite _ d .wrIntStatus _ (by decide)⟩

theorem EncodeMatchesRow.wrIntEnable (d : Word) : Statement (.wrIntEnable d) :=
  fun _ => ⟨tableRows[25], List.getElem_mem _, writeRow_reads_encodeWrite _ d .wrIntEnable _ (by decide)⟩

theorem EncodeMatchesRow.wrCfg (d : Word) : Statement (.wrCfg d) :=
  fun _ => ⟨tableRows[26], List.getElem_mem _, writeRow_reads_encodeWrite _ d .wrCfg _ (by decide)⟩

theorem EncodeMatchesRow.wrWidth (d : Word) : Statement (.wrWidth d) :=
  fun _ => ⟨tableRows[27], List.getElem_mem _, writeRow_reads_encodeWrite _ d .wrWidth _ (by decide)⟩

theorem EncodeMatchesRow.wrHeight (d : Word) : Statement (.wrHeight d) :=
  fun _ => ⟨tableRows[28], List.getElem_mem _, writeRow_reads_encodeWrite _ d .wrHeight _ (by decide)⟩

theorem EncodeMatchesRow.wrSrcBase (d : Word) : Statement (.wrSrcBase d) :=
  fun _ => ⟨tableRows[29], List.getElem_mem _, writeRow_reads_encodeWrite _ d .wrSrcBase _ (by decide)⟩

theorem EncodeMatchesRow.wrSrcStride (d : Word) : Statement (.wrSrcStride d) :=
  fun _ => ⟨tableRows[30], List.getElem_mem _, writeRow_reads_encodeWrite _ d .wrSrcStride _ (by decide)⟩

theorem EncodeMatchesRow.wrDstBase (d : Word) : Statement (.wrDstBase d) :=
  fun _ => ⟨tableRows[31], List.getElem_mem _, writeRow_reads_encodeWrite _ d .wrDstBase _ (by decide)⟩

theorem EncodeMatchesRow.wrDstStride (d : Word) : Statement (.wrDstStride d) :=
  fun _ => ⟨tableRows[32], List.getElem_mem _, writeRow_reads_encodeWrite _ d .wrDstStride _ (by decide)⟩

theorem EncodeMatchesRow.wrClutIndex (d : Word) : Statement (.wrClutIndex d) :=
  fun _ => ⟨tableRows[33], List.getElem_mem _, writeRow_reads_encodeWrite _ d .wrClutIndex _ (by decide)⟩

theorem EncodeMatchesRow.wrClutData (d : Word) : Statement (.wrClutData d) :=
  fun _ => ⟨tableRows[34], List.getElem_mem _, writeRow_reads_encodeWrite _ d .wrClutData _ (by decide)⟩

theorem EncodeMatchesRow.wrCubeIndex (d : Word) : Statement (.wrCubeIndex d) :=
  fun _ => ⟨tableRows[35], List.getElem_mem _, writeRow_reads_encodeWrite _ d .wrCubeIndex _ (by decide)⟩

theorem EncodeMatchesRow.wrCubeData (d : Word) : Statement (.wrCubeData d) :=
  fun _ => ⟨tableRows[36], List.getElem_mem _, writeRow_reads_encodeWrite _ d .wrCubeData _ (by decide)⟩

theorem EncodeMatchesRow.wrLayout (d : Word) : Statement (.wrLayout d) :=
  fun _ => ⟨tableRows[37], List.getElem_mem _, writeRow_reads_encodeWrite _ d .wrLayout _ (by decide)⟩

theorem EncodeMatchesRow.cmdNop : Statement .cmdNop :=
  fun _ => ⟨tableRows[38], List.getElem_mem _, by decide, rfl⟩

theorem EncodeMatchesRow.cmdStart : Statement .cmdStart :=
  fun _ => ⟨tableRows[39], List.getElem_mem _, by decide, rfl⟩

theorem EncodeMatchesRow.cmdClearErr : Statement .cmdClearErr :=
  fun _ => ⟨tableRows[40], List.getElem_mem _, by decide, rfl⟩

theorem EncodeMatchesRow.cmdCubeInvalidate : Statement .cmdCubeInvalidate :=
  fun _ => ⟨tableRows[41], List.getElem_mem _, by decide, rfl⟩

theorem EncodeMatchesRow.cmdCubeCommit : Statement .cmdCubeCommit :=
  fun _ => ⟨tableRows[42], List.getElem_mem _, by decide, rfl⟩

theorem EncodeMatchesRow.cmdReserved (d : Word) : Statement (.cmdReserved d) :=
  fun _ => ⟨tableRows[43], List.getElem_mem _, writeRow_reads_encodeWrite _ d .cmdReserved _ (by decide)⟩

theorem EncodeMatchesRow.rdUnmapped (off : Offset) : Statement (.rdUnmapped off) := by
  refine fun _ => ⟨tableRows[44], List.getElem_mem _, ?_, ?_⟩
  · show (packHtw false 0#3 off 0#32 &&& 0x800000000000#48 == 0x000000000000#48) = true
    rw [packHtw_and_weMask]
    decide
  · show Instr.rdUnmapped (htwOffset (packHtw false 0#3 off 0#32)) = _
    rw [htwOffset_packHtw]

theorem EncodeMatchesRow.wrUnmapped (off : Offset) (d : Word) : Statement (.wrUnmapped off d) := by
  refine fun _ => ⟨tableRows[45], List.getElem_mem _, ?_, ?_⟩
  · show (packHtw true 0#3 off d &&& 0x800000000000#48 == 0x800000000000#48) = true
    rw [packHtw_and_weMask]
    decide
  · show Instr.wrUnmapped (htwOffset (packHtw true 0#3 off d)) (htwWdata (packHtw true 0#3 off d)) = _
    rw [htwOffset_packHtw, htwWdata_packHtw]

end Sys2Proof.Laws
end

