-- ==== Sys2Proof/Tests/Slice0.lean ====
section
/-! SUPPORT. The model's own tests: ill-formed terms that WellFormed refuses; the decoding of one word per row of the
opcode table, written out from 30_encoding.md R85, R90 and R94; the examples of the rules of 40 to 44; and, for every
statement with hypotheses, a witness that meets them. Expected values are the spec's, each test names its rule. -/

namespace Sys2Proof.Tests

open Sys2Proof Sys2Proof.Machine Sys2Proof.Safety

/-! ### WellFormed refuses -/

/-- R90: the five command words are no reserved commands. -/
theorem test_wf_refuses_command_words :
    (Instr.cmdReserved 0#32).wf = false ∧ (Instr.cmdReserved 4#32).wf = false ∧
    (Instr.cmdReserved 5#32).wf = true ∧ (Instr.cmdReserved 0x101#32).wf = true := by decide

/-- R22, R86: a mapped offset is no operand of an unmapped read. -/
theorem test_wf_refuses_mapped_read :
    (Instr.rdUnmapped 0x000#12).wf = false ∧ (Instr.rdUnmapped 0x044#12).wf = false ∧
    (Instr.rdUnmapped 0x009#12).wf = true ∧ (Instr.rdUnmapped 0x048#12).wf = true := by decide

/-- R22, R86: a mapped offset is no operand of an unmapped write. -/
theorem test_wf_refuses_mapped_write :
    (Instr.wrUnmapped 0x004#12 1#32).wf = false ∧ (Instr.wrUnmapped 0x005#12 1#32).wf = true ∧
    (Instr.wrUnmapped 0xFFC#12 1#32).wf = true := by decide

/-! ### Decoding, one word per row (R85, R90, R94) -/

theorem test_decode_rsvRefusedB46 : decode 0xE018A5C3960F#48 = .rsvRefusedB46 true 2#2 0x018#12 0xA5C3960F#32 := by decide
theorem test_decode_rsvRefusedB45 : decode 0x3008A5C3960F#48 = .rsvRefusedB45 false 1#1 0x008#12 0xA5C3960F#32 := by decide
theorem test_decode_rsvRefusedB44 : decode 0x900400000001#48 = .rsvRefusedB44 true 0x004#12 1#32 := by decide
theorem test_decode_rdId : decode 0x0000A5C3960F#48 = .rdId := by decide
theorem test_decode_rdCmd : decode 0x0004A5C3960F#48 = .rdCmd := by decide
theorem test_decode_rdStatus : decode 0x0008A5C3960F#48 = .rdStatus := by decide
theorem test_decode_rdErr : decode 0x000CA5C3960F#48 = .rdErr := by decide
theorem test_decode_rdIntStatus : decode 0x0010A5C3960F#48 = .rdIntStatus := by decide
theorem test_decode_rdIntEnable : decode 0x0014A5C3960F#48 = .rdIntEnable := by decide
theorem test_decode_rdCfg : decode 0x0018A5C3960F#48 = .rdCfg := by decide
theorem test_decode_rdWidth : decode 0x001CA5C3960F#48 = .rdWidth := by decide
theorem test_decode_rdHeight : decode 0x0020A5C3960F#48 = .rdHeight := by decide
theorem test_decode_rdSrcBase : decode 0x0024A5C3960F#48 = .rdSrcBase := by decide
theorem test_decode_rdSrcStride : decode 0x0028A5C3960F#48 = .rdSrcStride := by decide
theorem test_decode_rdDstBase : decode 0x002CA5C3960F#48 = .rdDstBase := by decide
theorem test_decode_rdDstStride : decode 0x0030A5C3960F#48 = .rdDstStride := by decide
theorem test_decode_rdClutIndex : decode 0x0034A5C3960F#48 = .rdClutIndex := by decide
theorem test_decode_rdClutData : decode 0x0038A5C3960F#48 = .rdClutData := by decide
theorem test_decode_rdCubeIndex : decode 0x003CA5C3960F#48 = .rdCubeIndex := by decide
theorem test_decode_rdCubeData : decode 0x0040A5C3960F#48 = .rdCubeData := by decide
theorem test_decode_rdLayout : decode 0x0044A5C3960F#48 = .rdLayout := by decide
theorem test_decode_wrId : decode 0x8000A5C3960F#48 = .wrId 0xA5C3960F#32 := by decide
theorem test_decode_wrStatus : decode 0x8008A5C3960F#48 = .wrStatus 0xA5C3960F#32 := by decide
theorem test_decode_wrErr : decode 0x800CA5C3960F#48 = .wrErr 0xA5C3960F#32 := by decide
theorem test_decode_wrIntStatus : decode 0x8010A5C3960F#48 = .wrIntStatus 0xA5C3960F#32 := by decide
theorem test_decode_wrIntEnable : decode 0x8014A5C3960F#48 = .wrIntEnable 0xA5C3960F#32 := by decide
theorem test_decode_wrCfg : decode 0x8018A5C3960F#48 = .wrCfg 0xA5C3960F#32 := by decide
theorem test_decode_wrWidth : decode 0x801CA5C3960F#48 = .wrWidth 0xA5C3960F#32 := by decide
theorem test_decode_wrHeight : decode 0x8020A5C3960F#48 = .wrHeight 0xA5C3960F#32 := by decide
theorem test_decode_wrSrcBase : decode 0x8024A5C3960F#48 = .wrSrcBase 0xA5C3960F#32 := by decide
theorem test_decode_wrSrcStride : decode 0x8028A5C3960F#48 = .wrSrcStride 0xA5C3960F#32 := by decide
theorem test_decode_wrDstBase : decode 0x802CA5C3960F#48 = .wrDstBase 0xA5C3960F#32 := by decide
theorem test_decode_wrDstStride : decode 0x8030A5C3960F#48 = .wrDstStride 0xA5C3960F#32 := by decide
theorem test_decode_wrClutIndex : decode 0x8034A5C3960F#48 = .wrClutIndex 0xA5C3960F#32 := by decide
theorem test_decode_wrClutData : decode 0x8038A5C3960F#48 = .wrClutData 0xA5C3960F#32 := by decide
theorem test_decode_wrCubeIndex : decode 0x803CA5C3960F#48 = .wrCubeIndex 0xA5C3960F#32 := by decide
theorem test_decode_wrCubeData : decode 0x8040A5C3960F#48 = .wrCubeData 0xA5C3960F#32 := by decide
theorem test_decode_wrLayout : decode 0x8044A5C3960F#48 = .wrLayout 0xA5C3960F#32 := by decide
theorem test_decode_cmdNop : decode 0x800400000000#48 = .cmdNop := by decide
theorem test_decode_cmdStart : decode 0x800400000001#48 = .cmdStart := by decide
theorem test_decode_cmdClearErr : decode 0x800400000002#48 = .cmdClearErr := by decide
theorem test_decode_cmdCubeInvalidate : decode 0x800400000003#48 = .cmdCubeInvalidate := by decide
theorem test_decode_cmdCubeCommit : decode 0x800400000004#48 = .cmdCubeCommit := by decide
theorem test_decode_cmdReserved : decode 0x800400000101#48 = .cmdReserved 0x101#32 := by decide
theorem test_decode_rdUnmapped : decode 0x0009A5C3960F#48 = .rdUnmapped 0x009#12 := by decide
theorem test_decode_wrUnmapped : decode 0x804600000001#48 = .wrUnmapped 0x046#12 1#32 := by decide

/-- R95: an instruction is one HTW of 48 bits, and there is no longer one. -/
theorem test_decode_table_word :
    decodeTableWord 48 0x000800000000 = some .rdStatus ∧ decodeTableWord 56 0x000800000000 = none := by decide

/-! ### The rules' own examples -/

/-- The state after an outcome that has one. -/
def after (r : Result) : Option State :=
  match r with
  | .next t => some t
  | _ => none

/-- What the host got back. -/
def replyOf (r : Result) : Option Reply := (after r).map fun t => t.reply

/-- The ERR register afterwards. -/
def errOf (r : Result) : Option Word := (after r).map fun t => errWord t.err

/-- The CFG register afterwards. -/
def cfgOf (r : Result) : Option Word := (after r).map fun t => cfgWord t.cfg

/-- A machine with ERR = 0x00000003 (R107's example). -/
def withErr3 : State := { State.reset with err := ⟨.cubeNotReady, false, 0#16⟩ }

theorem test_wrId_error : errOf (exec (.wrId 0#32) State.reset) = some 0x00000009#32 := by decide
theorem test_rdId_reply : replyOf (exec .rdId State.reset) = some (.word 0x50580100#32) := by decide
theorem test_rdCmd_reply : replyOf (exec .rdCmd State.reset) = some (.word 0#32) := by decide
theorem test_rdStatus_reset : replyOf (exec .rdStatus State.reset) = some (.word 0#32) := by decide
theorem test_rdStatus_ready :
    replyOf (exec .rdStatus { State.reset with cubeReady := true }) = some (.word 0x00000002#32) := by decide
theorem test_wrStatus_error : errOf (exec (.wrStatus 1#32) State.reset) = some 0x00080009#32 := by decide
theorem test_rdErr_reply : replyOf (exec .rdErr withErr3) = some (.word 0x00000003#32) := by decide
theorem test_wrErr_sets_ovf : errOf (exec (.wrErr 0#32) withErr3) = some 0x00000103#32 := by decide
theorem test_rdIntStatus_reply :
    replyOf (exec .rdIntStatus { State.reset with done := true }) = some (.word 1#32) := by decide
theorem test_wrIntStatus_clears :
    (after (exec (.wrIntStatus 1#32) { State.reset with done := true })).map (fun t => t.done) = some false := by decide
theorem test_wrIntStatus_zero_keeps :
    (after (exec (.wrIntStatus 0xFFFFFFFE#32) { State.reset with done := true })).map (fun t => t.done) = some true := by
  decide
theorem test_wrIntEnable_all :
    ((after (exec (.wrIntEnable 0xFFFFFFFF#32) State.reset)).map fun t => replyOf (exec .rdIntEnable t)) =
      some (some (.word 3#32)) := by decide
theorem test_wrIntEnable_raises_irq :
    (after (exec (.wrIntEnable 1#32) { State.reset with done := true })).map irq = some true := by decide
theorem test_wrCfg_bad_format :
    errOf (exec (.wrCfg 0x0000000A#32) State.reset) = some 0x000A0001#32 ∧
    cfgOf (exec (.wrCfg 0x0000000A#32) State.reset) = some 0#32 := by decide
theorem test_wrCfg_fields : cfgOf (exec (.wrCfg 0xFFFFF813#32) State.reset) = some 0x00000013#32 := by decide
theorem test_wrWidth_drops_high :
    (after (exec (.wrWidth 0x00010002#32) State.reset)).map (fun t => t.width) = some 2#16 := by decide
theorem test_wrHeight_value :
    (after (exec (.wrHeight 2#32) State.reset)).map (fun t => (t.height, t.width)) = some (2#16, 0#16) := by decide
theorem test_wrSrcBase_value :
    (after (exec (.wrSrcBase 0x1001#32) State.reset)).map (fun t => (t.srcBase, t.dstBase)) =
      some (0x1001#32, 0#32) := by decide
theorem test_wrSrcStride_value :
    (after (exec (.wrSrcStride 0xFFFFFFFF#32) State.reset)).map (fun t => (t.srcStride, t.dstStride)) =
      some (0xFFFFFFFF#32, 0#32) := by decide
theorem test_wrDstBase_value :
    (after (exec (.wrDstBase 0x2000#32) State.reset)).map (fun t => (t.dstBase, t.srcBase)) =
      some (0x2000#32, 0#32) := by decide
theorem test_wrDstStride_value :
    (after (exec (.wrDstStride 6#32) State.reset)).map (fun t => (t.dstStride, t.srcStride)) =
      some (6#32, 0#32) := by decide
theorem test_rdLayout_abgr :
    replyOf (exec .rdLayout { State.reset with cfg := ⟨.abgr, .clut, 0#3⟩ }) = some (.word 0x00001C1B#32) := by decide
theorem test_wrLayout_error : errOf (exec (.wrLayout 0#32) State.reset) = some 0x00440009#32 := by decide
theorem test_rdUnmapped_reply : replyOf (exec (.rdUnmapped 0x100#12) withErr3) = some (.word 0#32) := by decide
theorem test_wrUnmapped_error : errOf (exec (.wrUnmapped 0x046#12 1#32) State.reset) = some 0x00460009#32 := by decide
theorem test_cmdNop_keeps : after (exec .cmdNop withErr3) = some withErr3 := by decide
theorem test_cmdClearErr_clears : errOf (exec .cmdClearErr withErr3) = some 0#32 := by decide
theorem test_cmdCubeInvalidate_clears :
    (after (exec .cmdCubeInvalidate { State.reset with cubeReady := true })).map (fun t => t.cubeReady) =
      some false := by decide
theorem test_cmdCubeCommit_sets :
    (after (exec .cmdCubeCommit State.reset)).map (fun t => t.cubeReady) = some true := by decide
theorem test_cmdReserved_error : errOf (exec (.cmdReserved 5#32) State.reset) = some 0x0005000A#32 := by decide
theorem test_cmdStart_empty_job :
    (after (exec .cmdStart State.reset)).map (fun t => (t.busy, t.done)) = some (false, true) := by decide
theorem test_cmdStart_cube_not_ready :
    errOf (exec .cmdStart { State.reset with cfg := ⟨.rgb24, .cube, 0#3⟩ }) = some 0x00000003#32 := by decide
theorem test_wrClutIndex_truncates :
    (after (exec (.wrClutIndex 0x1FF#32) State.reset)).map (fun t => t.clutIndex) = some 0xFF#8 := by decide
theorem test_rdClutData_reply :
    (after (exec .rdClutData { State.reset with clut := [(5, 0x7F#8)], clutIndex := 5#8 })).map
      (fun t => (t.reply, t.clutIndex)) = some (.word 0x7F#32, 6#8) := by decide
theorem test_wrClutData_wraps :
    (after (exec (.wrClutData 0x112#32) { State.reset with clutIndex := 255#8 })).map
      (fun t => (t.clut, t.clutIndex)) = some ([(255, 0x12#8)], 0#8) := by decide
theorem test_wrCubeIndex_truncates :
    (after (exec (.wrCubeIndex 0xFF0A141E#32) State.reset)).map (fun t => t.cubeIndex) = some 0x0A141E#24 := by decide
theorem test_rdCubeData_reply :
    (after (exec .rdCubeData { State.reset with cube := [(0x0A141E, 0x010203#24)], cubeIndex := 0x0A141E#24 })).map
      (fun t => (t.reply, t.cubeIndex)) = some (.word 0x00010203#32, 0x0A141F#24) := by decide
theorem test_wrCubeData_clears_ready :
    (after (exec (.wrCubeData 0x00010203#32)
      { State.reset with cubeIndex := 0x0A141E#24, cubeReady := true })).map
      (fun t => (t.cube, t.cubeReady, t.cubeIndex)) =
      some ([(0x0A141E, 0x010203#24)], false, 0x0A141F#24) := by decide
theorem test_rsv_refused : exec (.rsvRefusedB44 true 0x004#12 1#32) State.reset = .refused .rsv := rfl

/-! ### Jobs (43_pixel_iterator.md, 44_pixel_mux.md) -/

/-- A CLUT job of 2 × 1 RGB24 pixels from 0x100 to 0x200, just accepted, with the bytes of R191's and R193's examples:
(100, 100, 100) and (50, 60, 70), and the entries that darken RELATIVE 50 gives them (R213). -/
def clutJob : State :=
  { State.reset with
    busy := true, width := 2#16, height := 1#16, srcBase := 0x100#32, srcStride := 6#32, dstBase := 0x200#32,
    dstStride := 6#32, clut := [(50, 25#8), (60, 30#8), (70, 35#8), (100, 50#8)],
    mem := [(0x100, 100#8), (0x101, 100#8), (0x102, 100#8), (0x103, 50#8), (0x104, 60#8), (0x105, 70#8)] }

/-- An in-place CUBE job of one RGBA pixel, just accepted, with the entry of R196's example. -/
def cubeJob : State :=
  { State.reset with
    busy := true, cubeReady := true, cfg := ⟨.rgba, .cube, 0#3⟩, width := 1#16, height := 1#16, srcBase := 0x100#32,
    srcStride := 4#32, dstBase := 0x100#32, dstStride := 4#32, cube := [(0x0A141E, 0x010203#24)], inplace := true,
    mem := [(0x100, 10#8), (0x101, 20#8), (0x102, 30#8), (0x103, 200#8)] }

/-- A CLUT job of 1 × 2 RGBA pixels that is not in place, just accepted: each fourth byte is copied (R198). -/
def copyJob : State :=
  { clutJob with
    cfg := ⟨.rgba, .clut, 0#3⟩, width := 1#16, height := 2#16, srcStride := 4#32, dstStride := 4#32,
    clut := [(10, 5#8), (20, 15#8), (30, 25#8), (50, 25#8), (60, 30#8), (70, 35#8)],
    mem := [(0x100, 10#8), (0x101, 20#8), (0x102, 30#8), (0x103, 200#8), (0x104, 50#8), (0x105, 60#8),
      (0x106, 70#8), (0x107, 201#8), (0x203, 7#8)] }

/-- The memory after an outcome that has one, read at some addresses. -/
def bytesOf (r : Result) (l : List Nat) : Option (List Byte) := (after r).map fun t => l.map t.mem.read

theorem test_clut_pixel : bytesOf (engineTurn clutJob) [0x200, 0x201, 0x202] = some [50#8, 50#8, 50#8] := by decide
theorem test_clut_second_pixel :
    bytesOf (engineTurn { clutJob with curX := 1#16 }) [0x203, 0x204, 0x205] = some [25#8, 30#8, 35#8] := by decide
theorem test_cube_pixel :
    bytesOf (engineTurn cubeJob) [0x100, 0x101, 0x102, 0x103] = some [1#8, 2#8, 3#8, 200#8] := by decide
theorem test_fourth_byte_copied :
    bytesOf (engineTurn copyJob) [0x200, 0x201, 0x202, 0x203] = some [5#8, 15#8, 25#8, 200#8] := by decide
theorem test_overwritten_bytes_recorded :
    (after (engineTurn copyJob)).map (fun t => decide ((0x203, 7#8) ∈ t.stale ∧ (0x200, 0#8) ∈ t.stale)) =
      some true := by decide
theorem test_job_completes :
    (after (engineTurn cubeJob)).map (fun t => (t.busy, t.done)) = some (false, true) := by decide
theorem test_darken_examples :
    darkenEntry ⟨.relative, false, 50, 1⟩ 255 = 128 ∧ darkenEntry ⟨.relative, false, 50, 1⟩ 100 = 50 ∧
    darkenEntry ⟨.relative, false, 50, 1⟩ 1 = 1 := by decide
/-- R211: a type, an `adaptive` code or a value outside its set is refused; 255 is the largest value. -/
theorem test_darken_check :
    darkenCheck ⟨2, 0, 50, 1⟩ = none ∧ darkenCheck ⟨0, 2, 50, 1⟩ = none ∧ darkenCheck ⟨1, 1, -1, 1⟩ = none ∧
    darkenCheck ⟨1, 1, 256, 1⟩ = none ∧ darkenCheck ⟨1, 1, 255, 1⟩ = some ⟨.subtractive, true, 255, 1⟩ ∧
    darkenCheck ⟨0, 1, 50, 1⟩ = some ⟨.relative, true, 50, 1⟩ := by decide
/-- R265: the boot of an empty frame in its least form is CFG, the six geometry writes, START and the read of ERR. -/
theorem test_boot_lines :
    (bootLines ⟨false, none, none, none, .bgra, .cube, 0#3, ⟨0, 0, 0, 0, 0, 0⟩⟩).length = 9 ∧
    ((bootLines ⟨false, none, none, none, .bgra, .cube, 0#3, ⟨0, 0, 0, 0, 0, 0⟩⟩).map encodeLine).head? =
      some 0x801800000013#48 := by decide
theorem test_script_word : encodeLine (.rd (.named .status)) = 0x000800000000#48 := by decide
/-- R96, R97: POLL takes a raw offset, and the block sees its reads only. -/
theorem test_poll_raw_offset :
    (unroll [.poll (.raw 0x009#12) 1#32 0#32, .line (wr .cmd 0#32)] [2]).map encodeLine =
      [0x000900000000#48, 0x000900000000#48, 0x800400000000#48] := by decide
/-- R237, R241: a rise of irq that DONE alone makes is one for DONE; where an error held the line high it is none. -/
theorem test_irq_rise :
    (after (step { cubeJob with doneIe := true })).map (fun t => (irq t, t.irqRose)) = some (true, true) ∧
    (after (step { cubeJob with doneIe := true, errIe := true, err := ⟨.busy, false, 4#16⟩ })).map
      (fun t => (irq t, t.irqRose)) = some (true, false) := by decide

/-! ### Witnesses: each meets the hypotheses of the statement it is named after -/

theorem witness_DecodeOfEncodeIsIdentity : (Instr.wrUnmapped 0x046#12 1#32).wf = true := by decide

theorem witness_EncodeOfDecodeIsTheWord :
    htwWe 0x801800000013#48 = true ∧ htwRsv 0x100800000000#48 ≠ 0#3 ∧
    (htwWe 0x0008DEADBEEF#48 = false ∧ htwRsv 0x0008DEADBEEF#48 = 0#3) := by decide

theorem witness_RsvWordsAreRefused : (1#3 : BitVec 3) ≠ 0#3 ∧ (4#3 : BitVec 3) ≠ 0#3 := by decide

theorem witness_StepRunsTheDecodedTransaction :
    Instr.cmdStart.wf = true ∧
    ({ State.reset with inbox := [.txn (encode .cmdStart)] } : State).inbox = .txn (encode .cmdStart) :: [] := by decide

theorem witness_EngineStepsExactlyWhileBusy :
    (clutJob.inbox = [] ∧ clutJob.busy = true) ∧ (State.reset.inbox = [] ∧ State.reset.busy = false) ∧
    ({ clutJob with inbox := [.engine] }.inbox = .engine :: [] ∧ { clutJob with inbox := [.engine] }.busy = true) ∧
    ({ State.reset with inbox := [.engine] }.inbox = .engine :: [] ∧
      { State.reset with inbox := [.engine] }.busy = false) := by decide

theorem witness_ResetFromAnyState : { clutJob with inbox := [.reset] }.inbox = .reset :: [] := rfl

/-- Both jobs meet the invariant, and each has a next state. -/
theorem witness_StepKeepsTheInvariant :
    Invariant clutJob ∧ Invariant cubeJob ∧ (after (step clutJob)).isSome = true ∧
    (after (step cubeJob)).isSome = true := by decide

theorem witness_FirstErrorKeptLaterSetOvf :
    State.reset.err.code = .noError ∧ withErr3.err.code ≠ .noError := by decide

theorem witness_ErrorsArePrecise :
    (after (exec (.wrId 0#32) { withErr3 with err := ⟨.noError, false, 0#16⟩ })).any
      (fun u => u.err.code != .noError) = true ∧
    (after (exec .rdClutData { clutJob with err := ⟨.noError, false, 0#16⟩ })).any
      (fun u => u.err.code != .noError) = true := by decide

theorem witness_TransactionsLeaveARunningJobAlone :
    clutJob.busy = true ∧ (after (exec (.wrWidth 5#32) clutJob)).isSome = true := by decide

theorem witness_BusyGuardRefuses : clutJob.busy = true := rfl

theorem witness_LayoutRead :
    (State.reset.cfg.fmt, (0x324#32 : Word)) ∈ [(PixelFormat.rgb24, (0x324#32 : Word))] := by decide

theorem witness_UnmappedRead :
    (0x009#12 : Offset).toNat % 4 ≠ 0 ∧ 0x044 < (0x048#12 : Offset).toNat := by decide

theorem witness_ReadOnlyAndUnmappedWritesRefused :
    (0x041#12 : Offset).toNat % 4 ≠ 0 ∧ 0x044 < (0xFFC#12 : Offset).toNat := by decide

/-- One word for each clause, at the boundary of the legal codes: FMT 10 with MODE 2; FMT 9 with MODE 2; FMT 9 with
MODE 1. -/
theorem witness_CfgWrite :
    clutJob.busy = true ∧ State.reset.busy = false ∧
    9 < ((0x2A#32 : Word).extractLsb' 0 4).toNat ∧
    (((0x29#32 : Word).extractLsb' 0 4).toNat ≤ 9 ∧ 1 < ((0x29#32 : Word).extractLsb' 4 2).toNat) ∧
    (((0x19#32 : Word).extractLsb' 0 4).toNat ≤ 9 ∧ ((0x19#32 : Word).extractLsb' 4 2).toNat ≤ 1) := by decide

/-- The last index of each window, written; and the first, unwritten. -/
theorem witness_DataWindowReads :
    clutJob.busy = true ∧ State.reset.busy = false ∧
    ({ State.reset with clut := [(255, 1#8)], clutIndex := 255#8 } : State).clut.entry 255 = some 1#8 ∧
    ({ State.reset with cube := [(0xFFFFFF, 1#24)], cubeIndex := 0xFFFFFF#24 } : State).cube.entry 0xFFFFFF =
      some 1#24 ∧
    State.reset.clut.entry State.reset.clutIndex.toNat = none ∧
    State.reset.cube.entry State.reset.cubeIndex.toNat = none := by decide

/-- A write at the last index, with another entry to keep; and a busy machine. -/
theorem witness_DataWindowWrites :
    clutJob.busy = true ∧ ({ State.reset with clut := [(7, 9#8)], clutIndex := 255#8 } : State).busy = false ∧
    (7 : Nat) ≠ (255#8 : BitVec 8).toNat := by decide

theorem witness_FullClutLoad :
    ∃ (s : State) (values : List Word), s.busy = false ∧ values.length = 256 ∧
      s.inbox = .txn (encodeWrite (regOffset .clutIndex) 0#32) :: clutDataEvents values :=
  ⟨{ State.reset with
      inbox := .txn (encodeWrite (regOffset .clutIndex) 0#32) :: clutDataEvents (List.replicate 256 7#32) },
    List.replicate 256 7#32, rfl, List.length_replicate, rfl⟩

theorem witness_FullCubeLoad :
    ∃ (s : State) (values : List Word), s.busy = false ∧ values.length = 2 ^ 24 ∧
      s.inbox = .txn (encodeWrite (regOffset .cubeIndex) 0#32) ::
        (cubeDataEvents values ++ [.txn (encodeWrite (regOffset .cmd) 4#32)]) :=
  ⟨{ State.reset with
      inbox := .txn (encodeWrite (regOffset .cubeIndex) 0#32) ::
        (cubeDataEvents (List.replicate (2 ^ 24) 7#32) ++ [.txn (encodeWrite (regOffset .cmd) 4#32)]) },
    List.replicate (2 ^ 24) 7#32, rfl, List.length_replicate, rfl⟩

theorem witness_UnguardedCommands : 4 < (5#32 : Word).toNat := by decide

theorem witness_LegalStartIsAccepted :
    { clutJob with busy := false }.busy = false ∧
    ({ clutJob with busy := false }.cfg.mode = .cube → { clutJob with busy := false }.cubeReady = true) ∧
    emptyFrame { clutJob with busy := false } = false ∧ geometryError { clutJob with busy := false } = none := by decide

/-- A START refused while BUSY = 1, with no error recorded before, and with one recorded and OVF set. -/
theorem witness_RefusedStartLeavesDone :
    Raises .cmdStart clutJob .busy 0x0004#16 ∧
    Raises .cmdStart { clutJob with err := ⟨.badReg, true, 0x0008#16⟩ } .busy 0x0004#16 :=
  ⟨⟨_, rfl, by decide⟩, ⟨_, rfl, by decide⟩⟩

/-- The first and the last byte of the frame. -/
theorem witness_PixelAddressesStayInTheExtents :
    JobLegal clutJob ∧ 1 < clutJob.width.toNat ∧ 0 < clutJob.height.toNat ∧ 2 < stepOf clutJob.cfg.fmt := by decide

/-- A job of 2 × 2 pixels at each of the three kinds of place: within a row, at its end, and at the last pixel. -/
def squareJob (x y : BitVec 16) : State :=
  { clutJob with
    height := 2#16, curX := x, curY := y,
    clut := [(0, 0#8), (50, 25#8), (60, 30#8), (70, 35#8), (100, 50#8)] }

theorem witness_EngineStepAdvancesTheCursor :
    (after (engineStep (squareJob 0#16 0#16))).isSome = true ∧ (after (engineStep (squareJob 1#16 0#16))).isSome = true ∧
    (after (engineStep (squareJob 1#16 1#16))).isSome = true := by decide

theorem admits_of_no_holes {s : State} (h : s.holes = []) {a : Nat} (ha : a < 2 ^ 32) :
    admitsRead s a = true ∧ admitsWrite s a = true := by
  simp only [admitsRead, admitsWrite, h, Config.addressSpace, List.all_nil, ha, decide_true, Bool.and_self, and_self]

theorem extents_of_no_holes {s : State} (h : s.holes = []) (h1 : srcEnd s ≤ 2 ^ 32) (h2 : dstEnd s ≤ 2 ^ 32) :
    ExtentsAdmitted s :=
  ⟨fun _ _ ha => (admits_of_no_holes h (by omega)).1, fun _ _ ha => (admits_of_no_holes h (by omega)).2⟩

theorem clutJob_extents : ExtentsAdmitted clutJob := extents_of_no_holes rfl (by decide) (by decide)

theorem cubeJob_extents : ExtentsAdmitted cubeJob := extents_of_no_holes rfl (by decide) (by decide)

theorem copyJob_extents : ExtentsAdmitted copyJob := extents_of_no_holes rfl (by decide) (by decide)

/-- A step-3 job, and a step-4 job that is not in place. -/
theorem witness_ClutPixelStep :
    ((clutJob.mem.wf = true ∧ clutJob.busy = true ∧ clutJob.cfg.mode = .clut ∧ JobLegal clutJob ∧
      clutJob.clut.entry (clutJob.mem.read 0x100).toNat = some 50#8) ∧ ExtentsAdmitted clutJob) ∧
    (copyJob.mem.wf = true ∧ copyJob.busy = true ∧ copyJob.cfg.mode = .clut ∧ JobLegal copyJob ∧
      (layoutOf copyJob.cfg.fmt).step = 4 ∧ copyJob.inplace = false ∧
      copyJob.clut.entry (copyJob.mem.read 0x100).toNat = some 5#8 ∧
      copyJob.clut.entry (copyJob.mem.read 0x101).toNat = some 15#8 ∧
      copyJob.clut.entry (copyJob.mem.read 0x102).toNat = some 25#8) ∧ ExtentsAdmitted copyJob :=
  ⟨⟨by decide, clutJob_extents⟩, by decide, copyJob_extents⟩

/-- The CUBE job with its destination at 0x200, so that its fourth byte is copied. -/
def cubeCopyJob : State := { cubeJob with dstBase := 0x200#32, inplace := false }

theorem cubeCopyJob_extents : ExtentsAdmitted cubeCopyJob := extents_of_no_holes rfl (by decide) (by decide)

theorem witness_CubePixelStep_copied :
    (cubeCopyJob.mem.wf = true ∧ cubeCopyJob.busy = true ∧ cubeCopyJob.cfg.mode = .cube ∧ JobLegal cubeCopyJob ∧
      (layoutOf cubeCopyJob.cfg.fmt).step = 4 ∧ cubeCopyJob.inplace = false ∧
      cubeCopyJob.cube.entry ((cubeCopyJob.mem.read 0x100).toNat * 65536 + (cubeCopyJob.mem.read 0x101).toNat * 256 +
        (cubeCopyJob.mem.read 0x102).toNat) = some 0x010203#24) ∧ ExtentsAdmitted cubeCopyJob :=
  ⟨by decide, cubeCopyJob_extents⟩

theorem witness_CubePixelStep :
    (cubeJob.mem.wf = true ∧ cubeJob.busy = true ∧ cubeJob.cfg.mode = .cube ∧ JobLegal cubeJob ∧
      cubeJob.cube.entry ((cubeJob.mem.read 0x100).toNat * 65536 + (cubeJob.mem.read 0x101).toNat * 256 +
        (cubeJob.mem.read 0x102).toNat) = some 0x010203#24) ∧ ExtentsAdmitted cubeJob :=
  ⟨by decide, cubeJob_extents⟩

/-- The accesses of the step-4 copy job's first pixel are its four bytes. -/
theorem copyJob_reads (off : Nat) : off = 0 ∨ off = 1 ∨ off = 2 ∨ (copiesFourth copyJob = true ∧ off = 3) →
    admitsRead copyJob (0x100 + off) = true := by
  rintro (rfl | rfl | rfl | ⟨-, rfl⟩) <;> decide

/-- The unwritten entry; the refused write of a channel and of the fourth byte; the refused read of a channel and of the
fourth byte; each on a busy machine. -/
theorem witness_EngineFaults :
    (copyJob.busy = true ∧ copiesFourth copyJob = true ∧ (layoutOf copyJob.cfg.fmt).aOff = 3 ∧
      remap { copyJob with clut := [] } (sourceRgb copyJob 0 0) = none) ∧
    remap copyJob (sourceRgb copyJob 0 0) ≠ none ∧
    (admitsWrite { copyJob with holes := [⟨0x202, 1, false, true⟩] } 0x202 = false ∧
      admitsRead { copyJob with holes := [⟨0x202, 1, false, true⟩] } 0x202 = true) ∧
    (admitsWrite { copyJob with holes := [⟨0x203, 1, false, true⟩] } 0x203 = false ∧
      admitsRead { copyJob with holes := [⟨0x203, 1, false, true⟩] } 0x103 = true) ∧
    admitsRead { copyJob with holes := [⟨0x100, 1, true, false⟩] } 0x100 = false ∧
    admitsRead { copyJob with holes := [⟨0x103, 1, true, false⟩] } 0x103 = false := by decide

theorem clutJob_luts : LutsCoverFrame clutJob := by
  intro x y hx hy
  have hx : x < 2 := hx
  have hy : y < 1 := hy
  obtain rfl : y = 0 := by omega
  obtain rfl | rfl : x = 0 ∨ x = 1 := by omega
  · decide
  · decide

theorem cubeJob_luts : LutsCoverFrame cubeJob := by
  intro x y hx hy
  have hx : x < 1 := hx
  have hy : y < 1 := hy
  obtain rfl : y = 0 := by omega
  obtain rfl : x = 0 := by omega
  decide

theorem copyJob_luts : LutsCoverFrame copyJob := by
  intro x y hx hy
  have hx : x < 1 := hx
  have hy : y < 2 := hy
  obtain rfl : x = 0 := by omega
  obtain rfl | rfl : y = 0 ∨ y = 1 := by omega
  · decide
  · decide

/-- A host that reads STATUS and a destination byte and looks at irq between the two engine steps of a job, and then
writes a register. -/
def busyHost : List Event :=
  [.engine, .txn (encode .rdStatus), .hostRead 0x200#32, .hostSeesIrq, .engine, .txn (encode (.wrWidth 1#32))]

/-- The events of `busyHost` up to the second engine step take a job of two pixels to its end. -/
theorem jobSteps_busyHost {s : State} (h : s.width.toNat * s.height.toNat = 2) :
    JobSteps { s with inbox := busyHost } 5 [.txn (encode (.wrWidth 1#32))] := by
  refine .inr ⟨_, (List.take_append_drop 5 busyHost).symm, ?_, ?_, by decide, rfl⟩
  · intro e he
    simp only [busyHost, List.take_succ_cons, List.take_zero, List.mem_cons, List.not_mem_nil, or_false] at he
    rcases he with rfl | rfl | rfl | rfl | rfl
    · trivial
    · show htwRsv (encode .rdStatus) = 0#3
      decide
    · trivial
    · trivial
    · trivial
  · exact Eq.trans (by decide) h.symm

/-- A job that the engine takes to its end alone. -/
theorem jobSteps_alone {s : State} (h : s.inbox = []) : JobSteps s (s.width.toNat * s.height.toNat) [] :=
  .inl ⟨h, rfl, rfl⟩

theorem witness_JobVisitsPixelsInRasterOrder :
    ((JobBegins clutJob ∧ RamsCanonical clutJob) ∧ ExtentsAdmitted clutJob ∧ LutsCoverFrame clutJob ∧
      JobSteps clutJob 2 []) ∧
    JobBegins { clutJob with inbox := busyHost } ∧
    JobSteps { clutJob with inbox := busyHost } 5 [.txn (encode (.wrWidth 1#32))] :=
  ⟨⟨by decide, clutJob_extents, clutJob_luts, jobSteps_alone rfl⟩, by decide, jobSteps_busyHost rfl⟩

/-- A job that is in place, and a step-4 job that is not, alone and with a host at work. -/
theorem witness_WholeJobResult :
    (JobBegins cubeJob ∧ RamsCanonical cubeJob ∧ ExtentsAdmitted cubeJob ∧ LutsCoverFrame cubeJob ∧
      JobSteps cubeJob 1 []) ∧
    (JobBegins copyJob ∧ RamsCanonical copyJob ∧ ExtentsAdmitted copyJob ∧ LutsCoverFrame copyJob ∧
      JobSteps copyJob 2 []) ∧
    (JobBegins { copyJob with inbox := busyHost } ∧ RamsCanonical { copyJob with inbox := busyHost } ∧
      ExtentsAdmitted { copyJob with inbox := busyHost } ∧ LutsCoverFrame { copyJob with inbox := busyHost } ∧
      JobSteps { copyJob with inbox := busyHost } 5 [.txn (encode (.wrWidth 1#32))]) :=
  ⟨⟨by decide, by decide, cubeJob_extents, cubeJob_luts, jobSteps_alone rfl⟩,
    ⟨by decide, by decide, copyJob_extents, copyJob_luts, jobSteps_alone rfl⟩,
    ⟨by decide, by decide, copyJob_extents, copyJob_luts, jobSteps_busyHost rfl⟩⟩

/-- The first and the last byte of the source extent. -/
theorem witness_CopyJobLeavesTheSource :
    (JobBegins copyJob ∧ RamsCanonical copyJob ∧ copyJob.inplace = false ∧
      copyJob.srcBase.toNat ≤ 0x100 ∧ 0x107 < srcEnd copyJob) ∧ ExtentsAdmitted copyJob ∧ LutsCoverFrame copyJob ∧
    JobSteps { copyJob with inbox := busyHost } 5 [.txn (encode (.wrWidth 1#32))] :=
  ⟨by decide, copyJob_extents, copyJob_luts, jobSteps_busyHost rfl⟩

/-- The identity CLUT (R221). -/
def identityClut : Lut 8 := (List.range 256).map fun i => (i, BitVec.ofNat 8 i)

theorem lookupKey_map {α : Type} (f : Nat → α) {l : List Nat} {a : Nat} (h : a ∈ l) :
    lookupKey (l.map fun i => (i, f i)) a = some (f a) := by
  induction l with
  | nil => cases h
  | cons b rest ih =>
    rw [List.map_cons, lookupKey_cons]
    split
    · subst_vars; rfl
    · exact ih ((List.mem_cons.mp h).resolve_left fun e => by omega)

theorem identityClut_entry (i : BitVec 8) : identityClut.entry i.toNat = some i := by
  rw [Lut.entry, identityClut, lookupKey_map _ (List.mem_range.mpr i.isLt), BitVec.ofNat_toNat, BitVec.setWidth_eq]

/-- The copy job with the identity CLUT, not in place and in place. -/
def identityJob (b : Bool) : State :=
  { copyJob with
    clut := identityClut, inplace := b, dstBase := if b then 0x100#32 else 0x200#32 }

theorem identityJob_begins (b : Bool) :
    JobBegins (identityJob b) ∧ RamsCanonical (identityJob b) ∧ (identityJob b).cfg.mode = .clut := by
  cases b <;> decide +kernel

theorem witness_IdentityClutJob (b : Bool) :
    (JobBegins (identityJob b) ∧ RamsCanonical (identityJob b) ∧ (identityJob b).cfg.mode = .clut) ∧
    ExtentsAdmitted (identityJob b) ∧ (∀ i : BitVec 8, (identityJob b).clut.entry i.toNat = some i) ∧
    (identityJob b).inplace = b ∧ JobSteps (identityJob b) 2 [] ∧
    JobSteps { identityJob b with inbox := busyHost } 5 [.txn (encode (.wrWidth 1#32))] :=
  ⟨identityJob_begins b, by cases b <;> exact extents_of_no_holes rfl (by decide) (by decide), identityClut_entry, rfl,
    jobSteps_alone rfl, jobSteps_busyHost rfl⟩

theorem witness_HostTransactionsDoNotDisturbEngineSteps :
    clutJob.busy = true ∧ (after (exec .cmdClearErr clutJob)).isSome = true ∧
    (after (engineTurn clutJob)).isSome = true := by decide

theorem witness_RacyHostReadGivesOldOrNew :
    { clutJob with inbox := [.hostRead 0x200#32] }.inbox = .hostRead 0x200#32 :: [] ∧
    pendingByte clutJob 0x200 = some 50#8 ∧
    (0x200, 9#8) ∈ { clutJob with stale := [(0x200, 9#8)] }.stale := by decide

/-- The job completed, irq risen for it, and a byte of it still unordered. -/
def completedJob : State :=
  { clutJob with busy := false, done := true, doneIe := true, irqRose := true, stale := [(0x200, 9#8)] }

/-- Both ways to see the completion, each with a byte of the job still unordered. -/
theorem witness_CompletionReadOrdersJobWrites :
    completedJob.busy = false ∧ (after (exec .rdErr completedJob)).isSome = true ∧
    (completedJob.done = true ∧ completedJob.doneIe = true ∧ completedJob.irqRose = true) ∧
    (after (runEvent .hostSeesIrq completedJob)).isSome = true := by decide

/-- DONE begins to drive irq at a job's end, alone and with an error that drives it; it goes on driving it; and a look
that shows no rise for DONE. -/
theorem witness_IrqRisesForDone :
    (after (step { cubeJob with doneIe := true })).any (fun t => doneDrives t && !errDrives t) = true ∧
    (after (step { cubeJob with doneIe := true, errIe := true, err := ⟨.busy, false, 4#16⟩ })).any
      (fun t => doneDrives t && errDrives t) = true ∧
    (doneDrives cubeJob = false ∧ irq cubeJob = false) ∧
    (doneDrives { State.reset with done := true, doneIe := true } = true ∧
      (after (step { State.reset with done := true, doneIe := true })).any doneDrives = true) ∧
    ¬(State.reset.done = true ∧ State.reset.doneIe = true ∧ State.reset.irqRose = true) := by decide

/-- The first and the last byte of each extent while BUSY = 1; the bytes just outside them; a byte that is not
unordered where others are; and one that is. -/
theorem witness_HostWritesStayOutOfRunningJobs :
    (clutJob.busy = true ∧ clutJob.srcBase.toNat ≤ (0x100#32 : Word).toNat ∧ (0x105#32 : Word).toNat < srcEnd clutJob ∧
      clutJob.dstBase.toNat ≤ (0x200#32 : Word).toNat ∧ (0x205#32 : Word).toNat < dstEnd clutJob) ∧
    (clutJob.mem.wf = true ∧ srcEnd clutJob ≤ (0x106#32 : Word).toNat ∧
      (0x1FF#32 : Word).toNat < clutJob.dstBase.toNat ∧ clutJob.stale = []) ∧
    ({ clutJob with busy := false, stale := [(0x200, 9#8)] }.busy = false ∧
      (∀ c ∈ { clutJob with busy := false, stale := [(0x200, 9#8)] }.stale, c.1 ≠ 0x201)) ∧
    (0x200, 9#8) ∈ { clutJob with busy := false, stale := [(0x200, 9#8)] }.stale := by decide

/-- Legal parameters at the ends of the range of the value, and illegal ones just past them. -/
theorem witness_DarkenChecksItsParameters :
    ((0 : Int) ≤ 0 ∧ (0 : Int) ≤ 255 * ((1 : Nat) : Int)) ∧ (510 : Int) ≤ 255 * ((2 : Nat) : Int) ∧
    ¬(0 : Int) ≤ -1 ∧ ¬(511 : Int) ≤ 255 * ((2 : Nat) : Int) ∧ ¬((2 : Int) = 0 ∨ (2 : Int) = 1) := by decide

theorem witness_DarkenEntryIsTheRealFormula : 0 < (⟨.subtractive, true, 510, 2⟩ : DarkenParams).den := by decide

theorem witness_DarkenProperties :
    ((⟨.relative, true, 0, 1⟩ : DarkenParams).kind = .relative ∧ (⟨.relative, true, 0, 1⟩ : DarkenParams).num = 0) ∧
    ((⟨.subtractive, true, 510, 2⟩ : DarkenParams).adaptive = true ∧
      (⟨.subtractive, true, 510, 2⟩ : DarkenParams).num = 255 * 2) := by decide

theorem witness_DarkenRoundsTiesToZero : 0 < 2 ∧ roundTiesToZero 255 2 = 127 ∧ roundTiesToZero 1 2 = 0 := by decide

/-- A black frame of 3 × 1 RGB24 pixels in unwritten memory has one sample, and it is black. -/
theorem witness_GammaOfBlackIsIdentity :
    frameSamples [] ⟨.rgb24, 0, 9, 3, 1⟩ = [⟨0#8, 0#8, 0#8⟩] := by decide

/-- A frame of no width, one of no height, and one of neither. -/
theorem witness_GammaIsSkippedWithoutSamples :
    frameSamples [] ⟨.rgb24, 0, 9, 0, 1⟩ = [] ∧ frameSamples [] ⟨.rgb24, 0, 9, 3, 0⟩ = [] ∧
    frameSamples [] ⟨.rgb24, 0, 63, 21, 21⟩ ≠ [] := by decide

/-- There is a gamma table for the mean brightness 1. -/
theorem witness_GammaTableNeverFalls : ∃ (avg : ℝ) (t : List Nat), 0 ≤ avg ∧ IsGammaTable avg t := by
  have built : ∀ (g : ℝ) (l : List Nat),
      List.Forall₂ (IsGammaEntry g) l (l.map fun i => ⌊255 * ((i : ℝ) / 255) ^ g + 1 / 2⌋₊) := by
    intro g l
    induction l with
    | nil => exact .nil
    | cons a rest ih => exact .cons rfl ih
  exact ⟨1, _, zero_le_one, _, rfl, built _ _⟩

end Sys2Proof.Tests
end

section
/-! SUPPORT. What a host transaction can do to the state, and the invariant that every step keeps (10_state.md R25, R28,
R31, R46, R50). -/

namespace Sys2Proof.Machine

open Sys2Proof.Safety

/-! ### The error record -/

/-- START raises a proper error code (R165). -/
theorem geometryError_code_ne {s : State} {c : ErrCode} {n : BitVec 16} (h : geometryError s = some (c, n)) :
    c ≠ .noError := by
  unfold geometryError at h
  split_ifs at h <;> cases h <;> decide

/-- After an error with a proper code there is a code in ERR (R233). -/
theorem recordedError_code_ne (s : State) {c : ErrCode} (hc : c ≠ .noError) (n : BitVec 16) :
    (recordedError s c n).code ≠ .noError := by
  show (if s.err.code = .noError then c else s.err.code) ≠ .noError
  split <;> assumption

/-! ### What a host transaction can do -/

/-- The effects that a host transaction can have: the states it can leave, with what held before it. -/
inductive TxnEffect (s : State) : State → Prop
  /-- Only the reply changes: a read, or NOP. -/
  | replied (r : Reply) : TxnEffect s { s with reply := r }
  /-- A completion read (R74). -/
  | completionSeen (r : Reply) : TxnEffect s { seeCompletion s with reply := r }
  /-- An error was raised (R233, R234). -/
  | errorRecorded {c : ErrCode} (hc : c ≠ .noError) (n : BitVec 16) (r : Reply) :
      TxnEffect s { s with err := recordedError s c n, reply := r }
  /-- CLEAR_ERR (R143). -/
  | errorCleared : TxnEffect s { clearError s with reply := .nothing }
  /-- A write of INT_STATUS or INT_ENABLE, which never sets DONE (R109, R111). -/
  | interruptsSet {done : Bool} (hd : done = true → s.done = true) (doneIe errIe : Bool) :
      TxnEffect s { s with done := done, doneIe := doneIe, errIe := errIe, reply := .nothing }
  /-- A busy-guarded transaction outside the LUTs' contents: the job's parameters, CUBE_READY and the indices. -/
  | parametersSet (hb : s.busy = false) (cfg : Cfg) (width height : BitVec 16)
      (srcBase srcStride dstBase dstStride : Word) (clutIndex : BitVec 8) (cubeIndex : Key) (cubeReady : Bool)
      (r : Reply) :
      TxnEffect s { s with
        cfg := cfg, width := width, height := height, srcBase := srcBase, srcStride := srcStride, dstBase := dstBase,
        dstStride := dstStride, clutIndex := clutIndex, cubeIndex := cubeIndex, cubeReady := cubeReady, reply := r }
  /-- A write of CLUT_DATA (R153). -/
  | clutStored (hb : s.busy = false) (v : Byte) :
      TxnEffect s { s with
        clut := s.clut.store s.clutIndex.toNat v, clutIndex := s.clutIndex + 1#8, reply := .nothing }
  /-- A write of CUBE_DATA (R157). -/
  | cubeStored (hb : s.busy = false) (v : Key) :
      TxnEffect s { s with
        cube := s.cube.store s.cubeIndex.toNat v, cubeReady := false, cubeIndex := s.cubeIndex + 1#24,
        reply := .nothing }
  /-- START of an empty frame (R171). -/
  | emptyJobDone (hb : s.busy = false) : TxnEffect s { emptyJob s with reply := .nothing }
  /-- START of a job that passed every check (R173). -/
  | jobAccepted (hb : s.busy = false) (hr : s.cfg.mode = .cube → s.cubeReady = true) (he : emptyFrame s = false)
      (hg : geometryError s = none) : TxnEffect s { acceptJob s with reply := .nothing }

/-- Every next state that a result answers is the effect of a host transaction. -/
def HasTxnEffect (s : State) (r : Result) : Prop := ∀ t, r = .next t → TxnEffect s t

theorem HasTxnEffect.next {s t : State} (h : TxnEffect s t) : HasTxnEffect s (.next t) := by
  rintro _ ⟨⟩
  exact h

theorem HasTxnEffect.fault (s : State) (e : Fault) : HasTxnEffect s (.fault e) := fun _ h => by cases h

theorem HasTxnEffect.refused (s : State) (e : Refusal) : HasTxnEffect s (.refused e) := fun _ h => by cases h

theorem HasTxnEffect.endRead (s : State) (v : Word) : HasTxnEffect s (endRead s v) := .next (.replied _)

theorem HasTxnEffect.completionRead (s : State) (v : Word) : HasTxnEffect s (Machine.endRead (seeCompletion s) v) :=
  .next (.completionSeen _)

theorem HasTxnEffect.refuseWrite (s : State) {c : ErrCode} (hc : c ≠ .noError) (n : BitVec 16) :
    HasTxnEffect s (refuseWrite s c n) := by
  rw [refuseWrite_eq]
  exact .next (.errorRecorded hc n _)

theorem HasTxnEffect.refuseBadReg (s : State) (off : Offset) : HasTxnEffect s (refuseBadReg s off) :=
  .refuseWrite s (by decide) _

theorem HasTxnEffect.guardWrite {s : State} {off : Offset} {r : Result} (h : s.busy = false → HasTxnEffect s r) :
    HasTxnEffect s (guardWrite s off r) := by
  intro t ht
  obtain ⟨-, rfl⟩ | ⟨hb, hr⟩ := guardWrite_next ht
  · exact .errorRecorded (by decide) _ _
  · exact h hb t hr

theorem HasTxnEffect.guardRead {s : State} {off : Offset} {r : Result} (h : s.busy = false → HasTxnEffect s r) :
    HasTxnEffect s (guardRead s off r) := by
  intro t ht
  obtain ⟨-, rfl⟩ | ⟨hb, hr⟩ := guardRead_next ht
  · exact .errorRecorded (by decide) _ _
  · exact h hb t hr

theorem execRdClutData_effect (s : State) : HasTxnEffect s (execRdClutData s) := by
  refine .guardRead fun hb => ?_
  split
  · exact .next (.parametersSet hb ..)
  · exact .fault s _

theorem execRdCubeData_effect (s : State) : HasTxnEffect s (execRdCubeData s) := by
  refine .guardRead fun hb => ?_
  split
  · exact .next (.parametersSet hb ..)
  · exact .fault s _

theorem execWrIntStatus_effect (d : Word) (s : State) : HasTxnEffect s (execWrIntStatus d s) := by
  unfold execWrIntStatus
  split
  · exact .next (.interruptsSet (done := false) nofun _ _)
  · exact .next (.replied _)

theorem execWrCfg_effect (d : Word) (s : State) : HasTxnEffect s (execWrCfg d s) := by
  refine .guardWrite fun hb => ?_
  split
  · exact .refuseWrite s (by decide) _
  · exact .refuseWrite s (by decide) _
  · exact .next (.parametersSet hb ..)

theorem startJob_effect (s : State) : HasTxnEffect s (startJob s) := by
  obtain ⟨-, e⟩ | ⟨-, -, -, e⟩ | ⟨hb, -, -, e⟩ | ⟨-, -, -, c, n, hg, e⟩ | ⟨hb, hr, he, hg, e⟩ := startJob_cases s
  all_goals rw [e]
  · exact .next (.errorRecorded (by decide) _ _)
  · exact .next (.errorRecorded (by decide) _ _)
  · exact .next (.emptyJobDone hb)
  · exact .next (.errorRecorded (geometryError_code_ne hg) _ _)
  · exact .next (.jobAccepted hb hr he hg)

/-- A transaction that answers `t` had one of the effects. -/
theorem exec_effect (i : Instr) (s : State) : HasTxnEffect s (exec i s) := by
  cases i
  case rsvRefusedB46 | rsvRefusedB45 | rsvRefusedB44 => exact .refused s _
  case rdId | rdCmd | rdIntEnable | rdCfg | rdWidth | rdHeight | rdSrcBase | rdSrcStride | rdDstBase | rdDstStride
    | rdClutIndex | rdCubeIndex | rdLayout | rdUnmapped => exact .endRead s _
  case rdStatus | rdErr | rdIntStatus => exact .completionRead s _
  case rdClutData => exact execRdClutData_effect s
  case rdCubeData => exact execRdCubeData_effect s
  case wrId | wrStatus | wrErr | wrLayout | wrUnmapped => exact .refuseBadReg s _
  case wrIntStatus d => exact execWrIntStatus_effect d s
  case wrIntEnable => exact .next (.interruptsSet id _ _)
  case wrCfg d => exact execWrCfg_effect d s
  case wrWidth | wrHeight | wrSrcBase | wrSrcStride | wrDstBase | wrDstStride | wrClutIndex | wrCubeIndex
    | cmdCubeInvalidate | cmdCubeCommit => exact .guardWrite fun hb => .next (.parametersSet hb ..)
  case wrClutData => exact .guardWrite fun hb => .next (.clutStored hb _)
  case wrCubeData => exact .guardWrite fun hb => .next (.cubeStored hb _)
  case cmdNop => exact .next (.replied _)
  case cmdStart => exact startJob_effect s
  case cmdClearErr => exact .next .errorCleared
  case cmdReserved => exact .refuseWrite s (by decide) _

/-! ### The parts of the invariant, under a host transaction -/

/-- All that two states of the same job can differ in. -/
theorem eq_of_sameJob {s t : State} (h : SameJob s t) :
    t = { s with
      err := t.err, done := t.done, doneIe := t.doneIe, errIe := t.errIe, clutIndex := t.clutIndex,
      cubeIndex := t.cubeIndex, mem := t.mem, holes := t.holes, stale := t.stale, races := t.races,
      irqRose := t.irqRose, reply := t.reply, inbox := t.inbox } := by
  cases s
  cases t
  simp_all [SameJob]

/-- The checks of a running job read nothing but the job and DONE. -/
theorem jobLegal_of_sameJob {s t : State} (h : JobLegal s) (hst : SameJob s t) (hd : t.done = true → s.done = true) :
    JobLegal t := by
  obtain ⟨hframe, hgeom, hx, hy, hin, hcube, hdone⟩ := h
  have hdone' : t.done = false := Bool.eq_false_iff.mpr fun ht => by simp [hd ht] at hdone
  rw [eq_of_sameJob hst]
  exact ⟨hframe, hgeom, hx, hy, hin, hcube, hdone'⟩

theorem TxnEffect.ramsCanonical {s t : State} (h : TxnEffect s t) (hs : RamsCanonical s) : RamsCanonical t := by
  obtain ⟨hmem, hclut, hcube⟩ := hs
  cases h
  case completionSeen => simpa using ⟨hmem, hclut, hcube⟩
  case clutStored => exact ⟨hmem, Lut.store_wf hclut s.clutIndex.isLt _, hcube⟩
  case cubeStored => exact ⟨hmem, hclut, Lut.store_wf hcube s.cubeIndex.isLt _⟩
  all_goals exact ⟨hmem, hclut, hcube⟩

theorem TxnEffect.errCoherent {s t : State} (h : TxnEffect s t) (hs : ErrCoherent s) : ErrCoherent t := by
  cases h
  case completionSeen => simpa using hs
  case errorRecorded hc n _ => exact fun h => absurd h (recordedError_code_ne s hc n)
  case errorCleared => exact fun _ => ⟨rfl, rfl⟩
  all_goals exact hs

/-- While BUSY = 1 no transaction touches the job or sets DONE (R100, R245). -/
theorem TxnEffect.of_busy {s t : State} (h : TxnEffect s t) (hb : s.busy = true) :
    SameJob s t ∧ (t.done = true → s.done = true) := by
  cases h
  case replied | errorRecorded | errorCleared | completionSeen => simp [SameJob]
  case interruptsSet hd _ _ => exact ⟨by simp [SameJob], hd⟩
  -- The others are effects of an idle machine.
  case parametersSet | clutStored | cubeStored | emptyJobDone | jobAccepted => simp_all

/-- An idle machine stays idle, or accepts a job that passed every check (R142, R173). -/
theorem TxnEffect.of_idle {s t : State} (h : TxnEffect s t) (hb : s.busy = false) :
    t.busy = false ∨
      (s.cfg.mode = .cube → s.cubeReady = true) ∧ emptyFrame s = false ∧ geometryError s = none ∧
        t = { acceptJob s with reply := .nothing } := by
  cases h
  case jobAccepted hr he hg => exact .inr ⟨hr, he, hg, rfl⟩
  case completionSeen => exact .inl (by simpa using hb)
  all_goals exact .inl hb

/-- A frame is not empty where it has a column and a row (R35). -/
theorem emptyFrame_eq_false {s : State} :
    emptyFrame s = false ↔ 0 < s.width.toNat ∧ 0 < s.height.toNat := by
  simp [emptyFrame, ← BitVec.toNat_inj, Nat.pos_iff_ne_zero]

/-- An accepted job is legal, with the cursor at the first pixel (R173). -/
theorem acceptJob_legal {s : State} (hr : s.cfg.mode = .cube → s.cubeReady = true) (he : emptyFrame s = false)
    (hg : geometryError s = none) : JobLegal (acceptJob s) := by
  obtain ⟨hw, hh⟩ := emptyFrame_eq_false.mp he
  exact ⟨he, hg, hw, hh, rfl, hr, rfl⟩

theorem TxnEffect.jobLegal {s t : State} (h : TxnEffect s t) (hs : s.busy = true → JobLegal s) (ht : t.busy = true) :
    JobLegal t := by
  cases hb : s.busy with
  | true =>
    obtain ⟨hsame, hdone⟩ := h.of_busy hb
    exact jobLegal_of_sameJob (hs hb) hsame hdone
  | false =>
    obtain hidle | ⟨hr, he, hg, rfl⟩ := h.of_idle hb
    · simp [hidle] at ht
    · exact acceptJob_legal hr he hg

theorem TxnEffect.invariant {s t : State} (h : TxnEffect s t) (hs : Invariant s) : Invariant t := by
  obtain ⟨hrams, herr, hjob⟩ := hs
  exact ⟨h.ramsCanonical hrams, h.errCoherent herr, h.jobLegal hjob⟩

/-! ### The invariant, under every other event -/

theorem memory_wf_of_invariant {s : State} (h : Invariant s) : s.mem.wf = true := h.1.1

/-- What touches neither the job, DONE nor ERR, and keeps the RAMs canonical, keeps the invariant. -/
theorem invariant_of_sameJob {s t : State} (h : Invariant s) (hst : SameJob s t) (hmem : t.mem.wf = true)
    (herr : t.err = s.err) (hdone : t.done = s.done) : Invariant t := by
  obtain ⟨⟨-, hclut, hcube⟩, hcoh, hjob⟩ := h
  obtain ⟨ebusy, -, -, -, -, -, -, -, -, eclut, ecube, -⟩ := id hst
  refine ⟨⟨hmem, by rwa [eclut], by rwa [ecube]⟩, by simpa only [ErrCoherent, herr] using hcoh, fun hb => ?_⟩
  exact jobLegal_of_sameJob (hjob (ebusy ▸ hb)) hst (hdone ▸ id)

/-- The reset state meets the invariant (R50). -/
theorem invariant_reset : Invariant State.reset :=
  ⟨⟨Memory.wf_nil, Lut.wf_nil, Lut.wf_nil⟩, fun _ => ⟨rfl, rfl⟩, nofun⟩

/-- A reset leaves the reset state but for what belongs to the platform (R260, R264). -/
theorem resetEvent_invariant {s : State} (h : Invariant s) : Invariant (resetEvent s) :=
  invariant_of_sameJob invariant_reset (by simp [SameJob]) (by simpa using memory_wf_of_invariant h) rfl rfl

theorem hostSeesIrq_invariant {s : State} (h : Invariant s) : Invariant (hostSeesIrq s) :=
  invariant_of_sameJob h (by simp [SameJob]) (by simpa using memory_wf_of_invariant h) (by simp) (by simp)

theorem settleIrq_invariant (before : State) {s : State} (h : Invariant s) : Invariant (settleIrq before s) :=
  invariant_of_sameJob h (by simp [SameJob]) (by simpa using memory_wf_of_invariant h) (by simp) (by simp)

theorem hostReadByte_invariant {s : State} (h : Invariant s) (addr : Word) : Invariant (hostReadByte s addr) := by
  rw [hostReadByte_frame]
  exact invariant_of_sameJob h (by simp [SameJob]) (memory_wf_of_invariant h) rfl rfl

theorem hostWriteByte_invariant {s t : State} {addr : Word} {v : Byte} (h : Invariant s)
    (ht : hostWriteByte s addr v = .next t) : Invariant t := by
  obtain ⟨-, rfl⟩ := hostWriteByte_next ht
  obtain ⟨hmem, hframe⟩ := landHostWrite_cases s addr.toNat v
  have hwf : (landHostWrite s addr.toNat v).mem.wf = true := by
    obtain e | ⟨-, e, -⟩ := hmem
    · rw [e]; exact Memory.write_wf (memory_wf_of_invariant h) addr.isLt v
    · rw [e]; exact memory_wf_of_invariant h
  rw [hframe]
  exact invariant_of_sameJob h (by simp [SameJob]) hwf rfl rfl

/-- A pixel step stores at admitted addresses only (R71, R82). -/
theorem pixelStep_invariant {s t : State} (h : Invariant s) (ht : pixelStep s = .next t) : Invariant t := by
  obtain ⟨q, u, a, -, -, hpack, hfourth, hframe⟩ := pixelStep_next ht
  obtain ⟨hr, hg, hb, hu⟩ := packPixel_some hpack
  have hwf : u.mem.wf = true := by
    rw [hu]
    have hwfR := Memory.write_wf (memory_wf_of_invariant h) (admitsWrite_lt hr) q.r
    exact Memory.write_wf (Memory.write_wf hwfR (admitsWrite_lt hg) _) (admitsWrite_lt hb) _
  have hwf' : t.mem.wf = true := by
    obtain ⟨v, -, ha, e⟩ | ⟨-, rfl⟩ := writeFourth_some hfourth
    · rw [e]; exact Memory.write_wf hwf (admitsWrite_lt ha) v
    · exact hwf
  rw [hframe]
  exact invariant_of_sameJob h (by simp [SameJob]) hwf' rfl rfl

/-- One more than a 16-bit value below another does not wrap. -/
theorem toNat_succ_of_lt {a b : BitVec 16} (h : a.toNat + 1 < b.toNat) : (a + 1#16).toNat = a.toNat + 1 := by
  bv_omega

/-- While the job goes on, the cursor stays inside the frame (R46, R176). -/
theorem advanceCursor_legal {s : State} (h : JobLegal s) (hb : (advanceCursor s).busy = true) :
    JobLegal (advanceCursor s) := by
  obtain ⟨hframe, hgeom, hx, hy, hrest⟩ := h
  obtain ⟨hcol, e⟩ | ⟨-, hrow, e⟩ | ⟨-, -, e⟩ := advanceCursor_cases s
  · rw [e]
    exact ⟨hframe, hgeom, (toNat_succ_of_lt hcol).trans_lt hcol, hy, hrest⟩
  · rw [e]
    exact ⟨hframe, hgeom, Nat.zero_lt_of_lt hx, (toNat_succ_of_lt hrow).trans_lt hrow, hrest⟩
  · simp [e] at hb

theorem advanceCursor_invariant {s : State} (h : Invariant s) (hb : s.busy = true) : Invariant (advanceCursor s) := by
  obtain ⟨hrams, herr, hjob⟩ := h
  exact ⟨by simpa [RamsCanonical] using hrams, by simpa [ErrCoherent] using herr, advanceCursor_legal (hjob hb)⟩

theorem engineTurn_invariant {s t : State} (h : Invariant s) (ht : engineTurn s = .next t) : Invariant t := by
  unfold engineTurn at ht
  split at ht
  · rename_i hb
    obtain ⟨u, hu, rfl⟩ := engineStep_next ht
    obtain ⟨-, -, -, -, -, -, -, hframe⟩ := pixelStep_next hu
    exact advanceCursor_invariant (pixelStep_invariant h hu) (by rw [hframe]; exact hb)
  · cases ht
    exact h

/-! ### One step -/

theorem runEvent_invariant {e : Event} {s t : State} (h : Invariant s) (ht : runEvent e s = .next t) :
    Invariant t := by
  cases e with
  | txn htw => exact (exec_effect _ s t ht).invariant h
  | engine => exact engineTurn_invariant h ht
  | reset => cases ht; exact resetEvent_invariant h
  | hostWrite addr v => exact hostWriteByte_invariant h ht
  | hostRead addr => cases ht; exact hostReadByte_invariant h addr
  | hostSeesIrq => cases ht; exact hostSeesIrq_invariant h
  | platform holes => cases ht; exact invariant_of_sameJob h (by simp [SameJob]) (memory_wf_of_invariant h) rfl rfl

/-- Taking an event from the inbox touches nothing else. -/
theorem takeEvent_invariant {s : State} (h : Invariant s) : Invariant (takeEvent s).2 := by
  unfold takeEvent
  split
  · exact h
  · exact invariant_of_sameJob h (by simp [SameJob]) (memory_wf_of_invariant h) rfl rfl

/-- Settles O10: each event keeps the invariant, and so do taking it and recording the irq line. -/
theorem stepKeepsTheInvariant : Obligations.StepKeepsTheInvariant := by
  intro s t h hstep
  obtain ⟨u, hu, rfl⟩ := settle_eq_next hstep
  exact settleIrq_invariant _ (runEvent_invariant (takeEvent_invariant h) hu)

/-- Settles O11. -/
theorem resetMeetsTheInvariant : Obligations.ResetMeetsTheInvariant := invariant_reset

/-- Settles O8, register by register in the order of the map (R22). -/
theorem resetStateIsTheTable : Obligations.ResetStateIsTheTable := by
  refine ⟨fun r v hrv => ?_, fun i => ⟨Lut.entry_nil i, Lut.entry_nil i⟩, rfl, rfl⟩
  simp only [List.mem_cons, List.not_mem_nil, or_false, Prod.mk.injEq] at hrv
  rcases hrv with ⟨rfl, rfl⟩ | ⟨rfl, rfl⟩ | ⟨rfl, rfl⟩ | ⟨rfl, rfl⟩ | ⟨rfl, rfl⟩ | ⟨rfl, rfl⟩ | ⟨rfl, rfl⟩ |
    ⟨rfl, rfl⟩ | ⟨rfl, rfl⟩ | ⟨rfl, rfl⟩ | ⟨rfl, rfl⟩ | ⟨rfl, rfl⟩ | ⟨rfl, rfl⟩ | ⟨rfl, rfl⟩ | ⟨rfl, rfl⟩ |
    ⟨rfl, rfl⟩
  all_goals rfl

end Sys2Proof.Machine
end

section
/-! SUPPORT. Decoding is the inverse of encoding (30_encoding.md R93, R96), and the step that runs a host transaction
(20_memory.md R70, R76). -/

namespace Sys2Proof

/-! ### The RSV rows (R88) -/

/-- The RSV bits of a packed word, from their lowest one or two on. -/
theorem packHtw_extractLsb'_rsv (we : Bool) (rsv : BitVec 3) (off : Offset) (d : Word) {k : Nat} (hk : k ≤ 3) :
    (packHtw we rsv off d).extractLsb' 44 k = rsv.extractLsb' 0 k := by
  apply BitVec.eq_of_getLsbD_eq
  intro i hi
  simp only [BitVec.getLsbD_extractLsb', hi, decide_true, Bool.true_and, Nat.zero_add]
  rw [← htwRsv_getLsbD _ (by omega), htwRsv_packHtw]

/-- Each RSV bit of a packed word. -/
theorem packHtw_getLsbD_rsv (we : Bool) (rsv : BitVec 3) (off : Offset) (d : Word) {k : Nat} (hk : k < 3) :
    (packHtw we rsv off d).getLsbD (44 + k) = rsv.getLsbD k := by
  rw [← htwRsv_getLsbD _ hk, htwRsv_packHtw]

theorem decode_packHtw_rsvB46 (we : Bool) (low : BitVec 2) (off : Offset) (d : Word) :
    decode (packHtw we (1#1 ++ low) off d) = .rsvRefusedB46 we low off d := by
  have hbit : ∀ l : BitVec 2, (1#1 ++ l).getLsbD 2 = true := by decide
  have hlow : ∀ l : BitVec 2, (1#1 ++ l).extractLsb' 0 2 = l := by decide
  have h46 : (packHtw we (1#1 ++ low) off d).getLsbD 46 = true :=
    (packHtw_getLsbD_rsv (k := 2) _ _ _ _ (by decide)).trans (hbit low)
  simp only [decode, h46, if_true, htwWe_packHtw, htwOffset_packHtw, htwWdata_packHtw,
    packHtw_extractLsb'_rsv _ _ _ _ (show 2 ≤ 3 by decide), hlow]

theorem decode_packHtw_rsvB45 (we : Bool) (low : BitVec 1) (off : Offset) (d : Word) :
    decode (packHtw we (1#2 ++ low) off d) = .rsvRefusedB45 we low off d := by
  have hbits : ∀ l : BitVec 1, (1#2 ++ l).getLsbD 2 = false ∧ (1#2 ++ l).getLsbD 1 = true := by decide
  have hlow : ∀ l : BitVec 1, (1#2 ++ l).extractLsb' 0 1 = l := by decide
  have h46 : (packHtw we (1#2 ++ low) off d).getLsbD 46 = false :=
    (packHtw_getLsbD_rsv (k := 2) _ _ _ _ (by decide)).trans (hbits low).1
  have h45 : (packHtw we (1#2 ++ low) off d).getLsbD 45 = true :=
    (packHtw_getLsbD_rsv (k := 1) _ _ _ _ (by decide)).trans (hbits low).2
  simp only [decode, h46, h45, Bool.false_eq_true, if_false, if_true, htwWe_packHtw, htwOffset_packHtw,
    htwWdata_packHtw, packHtw_extractLsb'_rsv _ _ _ _ (show 1 ≤ 3 by decide), hlow]

theorem decode_packHtw_rsvB44 (we : Bool) (off : Offset) (d : Word) :
    decode (packHtw we 1#3 off d) = .rsvRefusedB44 we off d := by
  have h46 : (packHtw we 1#3 off d).getLsbD 46 = false := packHtw_getLsbD_rsv (k := 2) _ _ _ _ (by decide)
  have h45 : (packHtw we 1#3 off d).getLsbD 45 = false := packHtw_getLsbD_rsv (k := 1) _ _ _ _ (by decide)
  have h44 : (packHtw we 1#3 off d).getLsbD 44 = true := packHtw_getLsbD_rsv (k := 0) _ _ _ _ (by decide)
  simp only [decode, h46, h45, h44, Bool.false_eq_true, if_false, if_true, htwWe_packHtw, htwOffset_packHtw,
    htwWdata_packHtw]

/-! ### Every row -/

theorem decode_encodeRead (off : Offset) : decode (encodeRead off) = decodeRead off :=
  decode_packHtw_rsv0 false off 0#32

theorem decode_encodeWrite (off : Offset) (d : Word) : decode (encodeWrite off d) = decodeWrite off d :=
  decode_packHtw_rsv0 true off d

/-- No operand bit of a well-formed instruction is lost between its word and its decoding (R85, R90, R94, R96). -/
theorem decode_encode {i : Instr} (h : i.wf = true) : decode (encode i) = i := by
  cases i
  case rsvRefusedB46 => exact decode_packHtw_rsvB46 ..
  case rsvRefusedB45 => exact decode_packHtw_rsvB45 ..
  case rsvRefusedB44 => exact decode_packHtw_rsvB44 ..
  case rdUnmapped off =>
    exact (decode_encodeRead off).trans (decodeRead_unmapped (by simpa [Instr.wf] using h))
  case wrUnmapped off d =>
    exact (decode_encodeWrite off d).trans (decodeWrite_unmapped (by simpa [Instr.wf] using h) d)
  case cmdReserved d =>
    exact (decode_encodeWrite _ d).trans (decodeCommand_reserved (by simpa [Instr.wf] using h))
  case cmdNop | cmdStart | cmdClearErr | cmdCubeInvalidate | cmdCubeCommit => decide
  case rdId | rdCmd | rdStatus | rdErr | rdIntStatus | rdIntEnable | rdCfg | rdWidth | rdHeight | rdSrcBase
    | rdSrcStride | rdDstBase | rdDstStride | rdClutIndex | rdClutData | rdCubeIndex | rdCubeData | rdLayout =>
    exact decode_encodeRead _
  -- The registers that are written whole or refused, each at its own offset.
  all_goals exact decode_encodeWrite _ _

end Sys2Proof

namespace Sys2Proof.Machine

/-! ### The step of a host transaction -/

/-- A word of 48 bits is put on the bus as it is. -/
theorem withFetchWord_inbox (s : State) (w : Htw) : (s.withFetchWord 48 w.toNat).inbox = .txn w :: s.inbox := by
  simp [State.withFetchWord, Nat.mod_eq_of_lt w.isLt]

/-- Where the next event is the word of a well-formed instruction, the step executes that instruction. -/
theorem step_encoded {i : Instr} (hi : i.wf = true) {s : State} {rest : List Event}
    (h : s.inbox = .txn (encode i) :: rest) :
    step s = settle { s with inbox := rest } (exec i { s with inbox := rest }) := by
  rw [step_event h, runEvent, decode_encode hi]

/-- Settles O6: each form of the next event is the event of `step_event`, and decoding is the inverse of encoding. -/
theorem stepRunsTheDecodedTransaction : Obligations.StepRunsTheDecodedTransaction := by
  refine ⟨fun w rest s h => step_event h, fun i rest s hi h => step_encoded hi h, fun i s hi => ?_,
    fun s t => ?_, settle_fault, settle_refused⟩
  · exact step_encoded hi (withFetchWord_inbox s (encode i))
  · rw [settle_next, ← settleIrq_frame]

end Sys2Proof.Machine
end

section
/-! SUPPORT. How the engine stops: the accesses of a pixel step, and the fault of each that is not admitted and of an
unwritten entry (20_memory.md R82; 44_pixel_mux.md R198, R199). -/

namespace Sys2Proof.Machine

open Sys2Proof.Safety

/-- The offsets within a pixel that its step reads and writes: the three channels and, where it is copied, the fourth
byte (R191, R198). -/
def AccessedOffset (s : State) (off : Nat) : Prop :=
  off = (layoutOf s.cfg.fmt).rOff ∨ off = (layoutOf s.cfg.fmt).gOff ∨ off = (layoutOf s.cfg.fmt).bOff ∨
    (copiesFourth s = true ∧ off = (layoutOf s.cfg.fmt).aOff)

/-- The platform admits every read of the source pixel at `p` (R82). -/
def ReadsAdmitted (s : State) (p : Nat) : Prop := ∀ off, AccessedOffset s off → admitsRead s (p + off) = true

/-- The platform admits every write of the destination pixel at `d` (R82). -/
def WritesAdmitted (s : State) (d : Nat) : Prop := ∀ off, AccessedOffset s off → admitsWrite s (d + off) = true

/-! ### The reads -/

theorem engineRead_admitted {s : State} {a : Nat} (h : admitsRead s a = true) :
    engineRead s a = some (s.mem.read a) :=
  engineRead_some.mpr ⟨h, rfl⟩

/-- A pixel is selected where its three channel reads are admitted (R190). -/
theorem selectPixel_of_admitted {s : State} {p : Nat} (h : ReadsAdmitted s p) : ∃ q, selectPixel s p = some q := by
  have hr := engineRead_admitted (h _ (.inl rfl))
  have hg := engineRead_admitted (h _ (.inr (.inl rfl)))
  have hb := engineRead_admitted (h _ (.inr (.inr (.inl rfl))))
  simp [selectPixel, hr, hg, hb]

/-- The fourth byte is read, where it is copied, if that is admitted (R198). -/
theorem readFourth_of_admitted {s : State} {p : Nat} (h : ReadsAdmitted s p) : ∃ a, readFourth s p = some a := by
  cases hc : copiesFourth s with
  | false => simp [readFourth, hc]
  | true => simp [readFourth, hc, engineRead_admitted (h _ (.inr (.inr (.inr ⟨hc, rfl⟩))))]

/-- Reads that give their bytes were all admitted. -/
theorem readsAdmitted_of_some {s : State} {p : Nat} {q : Rgb} {a : Option Byte} (hq : selectPixel s p = some q)
    (ha : readFourth s p = some a) : ReadsAdmitted s p := by
  simp only [selectPixel] at hq
  split at hq
  · rename_i hr hg hb
    rintro off (rfl | rfl | rfl | ⟨hc, rfl⟩)
    · exact (engineRead_some.mp hr).1
    · exact (engineRead_some.mp hg).1
    · exact (engineRead_some.mp hb).1
    · simp only [readFourth, hc, if_true, Option.map_eq_some_iff] at ha
      obtain ⟨v, hv, -⟩ := ha
      exact (engineRead_some.mp hv).1
  · cases hq

/-! ### The writes -/

/-- Writes of a pixel that are made were all admitted: no write changes what the platform admits (R82, R197). -/
theorem writesAdmitted_of_some {s t u : State} {p d : Nat} {q : Rgb} {a : Option Byte}
    (ha : readFourth s p = some a) (hu : packPixel s d q = some u) (ht : writeFourth u d a = some t) :
    WritesAdmitted s d := by
  obtain ⟨hr, hg, hb, eu⟩ := packPixel_some hu
  rintro off (rfl | rfl | rfl | ⟨hc, rfl⟩)
  · exact hr
  · exact hg
  · exact hb
  · obtain ⟨-, rfl⟩ | ⟨hc', -⟩ := readFourth_some ha
    · obtain ⟨-, -, hw, -⟩ | ⟨hn, -⟩ := writeFourth_some ht
      · rw [eu] at hw
        exact hw
      · cases hn
    · simp [hc] at hc'

/-! ### The outcomes of a pixel step -/

/-- The three ways in which a pixel step can go: every access is admitted and the entries are written, and it answers; a
lookup after admitted reads finds an unwritten entry (R199); or an access is not admitted (R82), which is a write if the
reads were. -/
theorem pixelStep_cases (s : State) :
    (ReadsAdmitted s (srcPx s s.curX.toNat s.curY.toNat) ∧ WritesAdmitted s (dstPx s s.curX.toNat s.curY.toNat) ∧
      remap s (sourceRgb s s.curX.toNat s.curY.toNat) ≠ none ∧ ∃ t, pixelStep s = .next t) ∨
    (ReadsAdmitted s (srcPx s s.curX.toNat s.curY.toNat) ∧
      remap s (sourceRgb s s.curX.toNat s.curY.toNat) = none ∧ pixelStep s = .fault .lutUnwritten) ∨
    ((ReadsAdmitted s (srcPx s s.curX.toNat s.curY.toNat) →
      remap s (sourceRgb s s.curX.toNat s.curY.toNat) ≠ none) ∧ pixelStep s = .fault .memNotAdmitted) := by
  simp only [pixelStep]
  split
  · rename_i p a hp ha
    obtain rfl : p = sourceRgb s s.curX.toNat s.curY.toNat := selectPixel_some hp
    have hreads := readsAdmitted_of_some hp ha
    split
    · rename_i q hq
      have hne : remap s (sourceRgb s s.curX.toNat s.curY.toNat) ≠ none := by simp [hq]
      split
      · rename_i t ht
        obtain ⟨u, hu, ht⟩ := Option.bind_eq_some_iff.mp ht
        exact .inl ⟨hreads, writesAdmitted_of_some ha hu ht, hne, t, rfl⟩
      · exact .inr (.inr ⟨fun _ => hne, rfl⟩)
    · rename_i hn
      exact .inr (.inl ⟨hreads, hn, rfl⟩)
  · rename_i hnone
    refine .inr (.inr ⟨fun hreads => ?_, rfl⟩)
    obtain ⟨q, hq⟩ := selectPixel_of_admitted hreads
    obtain ⟨a, ha⟩ := readFourth_of_admitted hreads
    exact absurd ha (hnone q a hq)

/-- A fault of the pixel step is the fault of the engine's turn (R174). -/
theorem engineTurn_of_fault {s : State} {e : Fault} (hb : s.busy = true) (h : pixelStep s = .fault e) :
    engineTurn s = .fault e := by
  simp [engineTurn, hb, engineStep, h]

/-- Settles O42: of the three ways in which a pixel step can go, each clause leaves one. -/
theorem engineFaults : Obligations.EngineFaults := by
  intro s hb
  obtain ⟨hr, hw, hne, -⟩ | ⟨hr, hn, e⟩ | ⟨hne, e⟩ := pixelStep_cases s
  · refine ⟨fun _ hn => absurd hn hne, fun _ _ off ho hoff => ?_, fun off ho hoff => ?_⟩
    · exact absurd (hw off ho) (by simp [hoff])
    · exact absurd (hr off ho) (by simp [hoff])
  · refine ⟨fun _ _ => engineTurn_of_fault hb e, fun _ hne => absurd hn hne, fun off ho hoff => ?_⟩
    exact absurd (hr off ho) (by simp [hoff])
  · have hturn := engineTurn_of_fault hb e
    exact ⟨fun hr hn => absurd hn (hne hr), fun _ _ _ _ _ => hturn, fun _ _ _ => hturn⟩

end Sys2Proof.Machine
end

section
/-! SUPPORT. The host's accesses to pixel memory, the completion order and the rise of irq (20_memory.md R74, R75;
60_exceptions.md R237, R241). -/

namespace Sys2Proof.Machine

/-! ### A host read -/

/-- The other bytes of a race are the overwritten ones and the pending one (R74). -/
theorem mem_raceCandidates {s : State} {a : Nat} {v : Byte} :
    v ∈ raceCandidates s a ↔ (a, v) ∈ s.stale ∨ pendingByte s a = some v := by
  simp only [raceCandidates, unorderedAt, List.mem_append, List.mem_map, List.mem_filter, beq_iff_eq,
    Option.mem_toList]
  refine or_congr_left ⟨?_, fun h => ⟨(a, v), ⟨h, rfl⟩, rfl⟩⟩
  rintro ⟨⟨a', v'⟩, ⟨h, rfl⟩, rfl⟩
  exact h

/-- A host read replies the byte as memory has it, or another byte of the race (R74). -/
theorem hostReadByte_reply (s : State) (addr : Word) :
    ∃ v, (hostReadByte s addr).reply = .byte v ∧
      (v = s.mem.read addr.toNat ∨ v ∈ raceCandidates s addr.toNat) := by
  simp only [hostReadByte]
  split
  · exact ⟨_, rfl, .inl rfl⟩
  · rename_i c rest hrace
    refine ⟨_, rfl, ?_⟩
    have hlt := Nat.mod_lt (Config.raceChoice s.races) (Nat.succ_pos (c :: rest).length)
    rw [List.getD_eq_getElem _ _ hlt, hrace, ← List.mem_cons]
    exact List.getElem_mem hlt

/-- An idle machine without unordered writes replies the byte as memory has it, and changes nothing else (R74). -/
theorem hostReadByte_ordered {s : State} (hb : s.busy = false) (hs : s.stale = []) (addr : Word) :
    hostReadByte s addr = { s with reply := .byte (s.mem.read addr.toNat) } := by
  have hrace : raceCandidates s addr.toNat = [] := by simp [raceCandidates, unorderedAt, pendingByte, hb, hs]
  simp only [hostReadByte, hrace]

/-- Settles O48: the reply is the byte in memory or one of `raceCandidates`, and bringing the record of irq up to date
touches neither. -/
theorem racyHostReadGivesOldOrNew : Obligations.RacyHostReadGivesOldOrNew := by
  intro s addr rest h
  obtain ⟨v, hreply, hv⟩ := hostReadByte_reply { s with inbox := rest } addr
  have hframe := hostReadByte_frame { s with inbox := rest } addr
  refine ⟨_, v, step_event h, ?_, ?_, ?_, hv.imp_right mem_raceCandidates.mp⟩
  · rw [settleIrq_reply, hreply]
  · rw [settleIrq_mem, hframe]
  · rw [settleIrq_inbox, hframe]

/-! ### The completion points -/

/-- A read of STATUS, ERR or INT_STATUS while BUSY = 0 orders every write, and changes nothing else but the reply
(R74). -/
theorem completionRead_orders {i : Instr} (hi : i ∈ [Instr.rdStatus, .rdErr, .rdIntStatus]) {s t : State}
    (hb : s.busy = false) (h : exec i s = .next t) : t = { s with stale := [], reply := t.reply } := by
  have hseen : ∀ v, endRead (seeCompletion s) v = .next t → t = { s with stale := [], reply := t.reply } := by
    intro v hv
    rw [seeCompletion_of_idle s hb] at hv
    cases hv
    rfl
  simp only [List.mem_cons, List.not_mem_nil, or_false] at hi
  obtain rfl | rfl | rfl := hi
  all_goals exact hseen _ h

theorem hostSeesIrq_of_rise {s : State} (h : doneDrives s = true) (hr : s.irqRose = true) :
    hostSeesIrq s = seeCompletion s := by
  simp [hostSeesIrq, h, hr]

theorem hostSeesIrq_of_no_rise {s : State} (h : ¬(doneDrives s = true ∧ s.irqRose = true)) : hostSeesIrq s = s := by
  unfold hostSeesIrq
  rw [if_neg (by simpa using h)]

theorem doneDrives_iff {s : State} : doneDrives s = true ↔ s.done = true ∧ s.doneIe = true := by
  simp [doneDrives]

/-- Settles O49: at each completion point no write is left unordered. -/
theorem completionReadOrdersJobWrites : Obligations.CompletionReadOrdersJobWrites := by
  intro s t addr hb h
  have hseen : t = { s with stale := [], reply := t.reply } := by
    obtain ⟨i, hi, ht⟩ | ⟨hdone, hie, hrose, ht⟩ := h
    · exact completionRead_orders hi hb ht
    · cases ht
      rw [hostSeesIrq_of_rise (doneDrives_iff.mpr ⟨hdone, hie⟩) hrose, seeCompletion_of_idle s hb]
  have hread := hostReadByte_ordered (s := t) (by rw [hseen]; exact hb) (by rw [hseen]) addr
  have hmem : t.mem = s.mem := by rw [hseen]
  rw [runEvent, hread, hmem]

/-! ### The rise of irq -/

/-- Where DONE begins to drive irq, the record says whether nothing drove the line before and ERR does not after
(R241). -/
theorem settleIrq_begins {s t : State} (hs : doneDrives s = false) (ht : doneDrives t = true) :
    (settleIrq s t).irqRose = (!irq s && !errDrives t) := by
  simp [settleIrq, hs, ht]

theorem doneDrives_settleIrq (s t : State) : doneDrives (settleIrq s t) = doneDrives t := by simp [doneDrives]

theorem errDrives_settleIrq (s t : State) : errDrives (settleIrq s t) = errDrives t := by
  simp [errDrives, errPending]

theorem errDrives_iff {s : State} : errDrives s = true ↔ s.err.code ≠ .noError ∧ s.errIe = true := by
  simp [errDrives, errPending]

/-- No host transaction touches the record of the irq line. -/
theorem TxnEffect.irqRose {s t : State} (h : TxnEffect s t) : t.irqRose = s.irqRose := by
  cases h
  case completionSeen => exact seeCompletion_irqRose s
  all_goals rfl

theorem engineTurn_irqRose {s t : State} (h : engineTurn s = .next t) : t.irqRose = s.irqRose := by
  unfold engineTurn at h
  split at h
  · obtain ⟨u, hu, rfl⟩ := engineStep_next h
    obtain ⟨-, -, -, -, -, -, -, hframe⟩ := pixelStep_next hu
    rw [advanceCursor_irqRose, hframe]
  · cases h
    rfl

/-- No event but a reset, which also clears DONE, touches the record of the irq line. -/
theorem runEvent_irqRose {e : Event} {s t : State} (h : runEvent e s = .next t) (ht : t.done = true) :
    t.irqRose = s.irqRose := by
  cases e with
  | txn htw => exact (exec_effect _ s t h).irqRose
  | engine => exact engineTurn_irqRose h
  | reset => cases h; cases ht
  | hostWrite addr v =>
    obtain ⟨-, rfl⟩ := hostWriteByte_next h
    rw [(landHostWrite_cases s addr.toNat v).2]
  | hostRead addr => cases h; rw [hostReadByte_frame]
  | hostSeesIrq => cases h; exact hostSeesIrq_irqRose s
  | platform holes => cases h; rfl

/-- A step with a next state runs one event, on the state with what is left of the inbox, and then brings the record of
irq up to date (R70). -/
theorem step_next {s t : State} (h : step s = .next t) :
    ∃ e inbox u, runEvent e { s with inbox := inbox } = .next u ∧ t = settleIrq s u := by
  cases hinbox : s.inbox with
  | nil =>
    rw [step_noEvent hinbox] at h
    obtain ⟨u, hu, rfl⟩ := settle_eq_next h
    exact ⟨.engine, s.inbox, u, hu, rfl⟩
  | cons e rest =>
    rw [step_event hinbox] at h
    obtain ⟨u, hu, rfl⟩ := settle_eq_next h
    exact ⟨e, rest, u, hu, rfl⟩

/-- Settles O50: a rise is recorded by `settleIrq` alone, since no event touches the record while DONE stays set. -/
theorem irqRisesForDone : Obligations.IrqRisesForDone := by
  refine ⟨fun s t h hs ht => ?_, fun s t h hs ht => ?_, fun s h => ?_⟩
  · obtain ⟨e, inbox, u, -, rfl⟩ := step_next h
    rw [settleIrq_begins hs ((doneDrives_settleIrq _ u).symm.trans ht), ← errDrives_iff, errDrives_settleIrq]
    simp
  · obtain ⟨e, inbox, u, hu, rfl⟩ := step_next h
    rw [settleIrq_of_not (fun _ => hs)] at ht ⊢
    exact (runEvent_irqRose hu (doneDrives_iff.mp ht).1).trans rfl
  · rw [runEvent, hostSeesIrq_of_no_rise (by rwa [doneDrives_iff, and_assoc])]

/-! ### A host write -/

theorem inExtents_iff {s : State} {a : Nat} :
    inExtents s a = true ↔ (s.srcBase.toNat ≤ a ∧ a < srcEnd s) ∨ (s.dstBase.toNat ≤ a ∧ a < dstEnd s) := by
  simp [inExtents]

/-- A host write outside a running job's extents lands (R75). -/
theorem hostWriteByte_lands {s : State} {addr : Word} (h : ¬(s.busy = true ∧ inExtents s addr.toNat = true))
    (v : Byte) :
    hostWriteByte s addr v = .next { landHostWrite s addr.toNat v with reply := .nothing } := by
  rw [hostWriteByte, if_neg (by simpa using h), endWrite_eq]

/-- Dropping the records of one byte keeps those of every other. -/
theorem mem_dropRecords_other {l : List Host.Cell} {a a' : Nat} (h : a' ≠ a) (b : Byte) :
    (a', b) ∈ l.filter (fun c => c.1 != a) ↔ (a', b) ∈ l := by
  simp [h]

/-- Where job writes of the byte are unordered, a landing write keeps the records of every other byte, and counts the
race (R74). -/
theorem landHostWrite_unordered {s : State} {a : Nat} (h : unorderedAt s a ≠ []) (v : Byte) :
    (∀ a' b, a' ≠ a → ((a', b) ∈ (landHostWrite s a v).stale ↔ (a', b) ∈ s.stale)) ∧
      (landHostWrite s a v).races = s.races + 1 := by
  obtain ⟨c, rest, hu⟩ := List.exists_cons_of_ne_nil h
  have hown : ∀ {a' k b}, a' ≠ a → (a', b) ∉ (c :: rest).take k := by
    intro a' k b ha hb
    have := List.mem_of_mem_take hb
    rw [← hu, unorderedAt, List.mem_filter] at this
    exact ha (by simpa using this.2)
  simp only [landHostWrite, hu]
  refine ⟨fun a' b ha => ?_, trivial⟩
  obtain ⟨-, e⟩ | ⟨k, -, e⟩ := placeHostWrite_cases s a v (c :: rest) (Config.raceChoice s.races % (rest.length + 2))
  · rw [e]
    exact mem_dropRecords_other ha b
  · rw [e, List.mem_append, List.mem_cons, mem_dropRecords_other ha, or_iff_right (hown ha), or_iff_right]
    simp [ha]

/-- A landing write leaves every byte but its own (R74). -/
theorem landHostWrite_read_other (s : State) {a a' : Nat} (v : Byte) (h : a' ≠ a) :
    (landHostWrite s a v).mem.read a' = s.mem.read a' := by
  obtain ⟨e | ⟨-, e, -⟩, -⟩ := landHostWrite_cases s a v
  · rw [e, Memory.read_write_other _ _ h.symm]
  · rw [e]

/-- Settles O51: a write in a running job's extents is refused, and any other lands as `landHostWrite` says. -/
theorem hostWritesStayOutOfRunningJobs : Obligations.HostWritesStayOutOfRunningJobs := by
  intro s addr v
  simp only [← inExtents_iff, runEvent]
  refine ⟨fun h => ?_, fun hwf hout hnone => ?_, fun hwf hout hsome => ?_⟩
  · rw [hostWriteByte, if_pos (by simpa using h)]
  · have hland := landHostWrite_ordered (unorderedAt_eq_nil.mpr hnone) v
    refine ⟨_, hostWriteByte_lands hout v, ?_, fun a ha => landHostWrite_read_other s v ha, ?_⟩
    · rw [hland]
      exact Memory.read_write_same hwf _ v
    · rw [hland]
  · have hun : unorderedAt s addr.toNat ≠ [] := fun h => by
      obtain ⟨b, hb⟩ := hsome
      exact unorderedAt_eq_nil.mp h b hb
    obtain ⟨hbyte, hframe⟩ := landHostWrite_cases s addr.toNat v
    obtain ⟨hother, hraces⟩ := landHostWrite_unordered hun v
    refine ⟨_, hostWriteByte_lands hout v, ?_, fun a ha => landHostWrite_read_other s v ha,
      fun a b ha => hother a b ha, ?_⟩
    · obtain e | ⟨-, e, hold⟩ := hbyte
      · exact .inl (by rw [e]; exact Memory.read_write_same hwf _ v)
      · exact .inr ⟨by rw [e], hold⟩
    · rw [hframe, hraces]

end Sys2Proof.Machine
end

section
/-! SUPPORT. Encoding is the inverse of decoding, and the decoder is the opcode table read first match first
(30_encoding.md R87, R88, R93, R98). -/

namespace Sys2Proof

/-- Settles O1: `decode_encode` for every row. -/
theorem decodeOfEncodeIsIdentity : Obligations.DecodeOfEncodeIsIdentity := fun _ => decode_encode

/-! ### The words by their fields -/

/-- Every word is packed from fields (R85). -/
theorem exists_packHtw (w : Htw) : ∃ we rsv off d, w = packHtw we rsv off d :=
  ⟨_, _, _, _, (packHtw_fields w).symm⟩

/-- The registers of R22, in the order of their offsets. -/
def registerMap : List Reg :=
  [.id, .cmd, .status, .err, .intStatus, .intEnable, .cfg, .width, .height, .srcBase, .srcStride, .dstBase, .dstStride,
    .clutIndex, .clutData, .cubeIndex, .cubeData, .layout]

/-- An offset is a register's, or it is unmapped (R22, R86). -/
theorem offset_cases (off : Offset) : (∃ r, off = regOffset r) ∨ mappedOffset off = false := by
  have hmap : ∀ k < 18, ∃ r ∈ registerMap, BitVec.ofNat 12 (4 * k) = regOffset r := by decide
  cases h : mappedOffset off
  · exact .inr rfl
  · obtain ⟨haligned, hle⟩ : off.toNat % 4 = 0 ∧ off.toNat ≤ 0x044 := by simpa [mappedOffset] using h
    obtain ⟨r, -, hr⟩ := hmap (off.toNat / 4) (by omega)
    refine .inl ⟨r, ?_⟩
    rw [← hr, Nat.mul_div_cancel' (Nat.dvd_of_mod_eq_zero haligned), BitVec.ofNat_toNat, BitVec.setWidth_eq]

/-- A WDATA is one of the five command words, or it is reserved (R89, R90). -/
theorem command_cases (d : Word) :
    (d = 0#32 ∨ d = 1#32 ∨ d = 2#32 ∨ d = 3#32 ∨ d = 4#32) ∨ isCommandWord d = false := by
  simp only [isCommandWord, decide_eq_false_iff_not]
  bv_omega

/-- A nonzero RSV has its highest bit at 46, 45 or 44, and decodes to that bit's row (R88). -/
theorem decode_rsv_cases (we : Bool) {rsv : BitVec 3} (h : rsv ≠ 0#3) (off : Offset) (d : Word) :
    (∃ low : BitVec 2, rsv = 1#1 ++ low ∧ decode (packHtw we rsv off d) = .rsvRefusedB46 we low off d) ∨
    (∃ low : BitVec 1, rsv = 1#2 ++ low ∧ decode (packHtw we rsv off d) = .rsvRefusedB45 we low off d) ∨
    (rsv = 1#3 ∧ decode (packHtw we rsv off d) = .rsvRefusedB44 we off d) := by
  have hform : ∀ r : BitVec 3, r ≠ 0#3 →
      (∃ low : BitVec 2, r = 1#1 ++ low) ∨ (∃ low : BitVec 1, r = 1#2 ++ low) ∨ r = 1#3 := by decide
  obtain ⟨low, rfl⟩ | ⟨low, rfl⟩ | rfl := hform rsv h
  · exact .inl ⟨low, rfl, decode_packHtw_rsvB46 ..⟩
  · exact .inr (.inl ⟨low, rfl, decode_packHtw_rsvB45 ..⟩)
  · exact .inr (.inr ⟨rfl, decode_packHtw_rsvB44 ..⟩)

/-! ### Encoding what was decoded -/

theorem decodeRead_wf_encode (off : Offset) :
    (decodeRead off).wf = true ∧ encode (decodeRead off) = encodeRead off := by
  obtain ⟨r, rfl⟩ | h := offset_cases off
  · cases r <;> exact ⟨rfl, rfl⟩
  · rw [decodeRead_unmapped h]
    exact ⟨by simp [Instr.wf, h], rfl⟩

theorem decodeCommand_wf_encode (d : Word) :
    (decodeCommand d).wf = true ∧ encode (decodeCommand d) = encodeWrite (regOffset .cmd) d := by
  obtain (rfl | rfl | rfl | rfl | rfl) | h := command_cases d
  case inr =>
    rw [decodeCommand_reserved h]
    exact ⟨by simp [Instr.wf, h], rfl⟩
  all_goals exact ⟨rfl, rfl⟩

theorem decodeWrite_wf_encode (off : Offset) (d : Word) :
    (decodeWrite off d).wf = true ∧ encode (decodeWrite off d) = encodeWrite off d := by
  obtain ⟨r, rfl⟩ | h := offset_cases off
  · cases r
    case cmd => exact decodeCommand_wf_encode d
    all_goals exact ⟨rfl, rfl⟩
  · rw [decodeWrite_unmapped h]
    exact ⟨by simp [Instr.wf, h], rfl⟩

theorem decode_rsv_wf_encode (we : Bool) {rsv : BitVec 3} (h : rsv ≠ 0#3) (off : Offset) (d : Word) :
    (decode (packHtw we rsv off d)).wf = true ∧ encode (decode (packHtw we rsv off d)) = packHtw we rsv off d := by
  obtain ⟨low, rfl, hrow⟩ | ⟨low, rfl, hrow⟩ | ⟨rfl, hrow⟩ := decode_rsv_cases we h off d
  all_goals
    rw [hrow]
    exact ⟨rfl, rfl⟩

/-- Settles O2: by RSV and WE, the cases in which the decoder goes by other fields. -/
theorem encodeOfDecodeIsTheWord : Obligations.EncodeOfDecodeIsTheWord := by
  intro w
  obtain ⟨we, rsv, off, d, rfl⟩ := exists_packHtw w
  simp only [htwWe_packHtw, htwRsv_packHtw, htwOffset_packHtw]
  by_cases hrsv : rsv = 0#3
  · subst hrsv
    rw [decode_packHtw_rsv0]
    cases we
    case false =>
      obtain ⟨hwf, henc⟩ := decodeRead_wf_encode off
      exact ⟨hwf, by simp, fun _ _ => henc⟩
    case true =>
      obtain ⟨hwf, henc⟩ := decodeWrite_wf_encode off d
      exact ⟨hwf, fun _ => henc, by simp⟩
  · obtain ⟨hwf, henc⟩ := decode_rsv_wf_encode we hrsv off d
    exact ⟨hwf, fun _ => henc, fun _ h => absurd h hrsv⟩

/-! ### The opcode table, row by row (R93) -/

/-- What the first row of a list that a word hits makes of it. -/
def firstHit (rows : List TableRow) (w : Htw) : Option Instr := (rows.find? fun r => r.hits w).map fun r => r.build w

/-- The table in its four parts, of which the RSV rows stand first. -/
theorem decodeByTable_eq (w : Htw) :
    decodeByTable w = firstHit (rsvRows ++ (readRows ++ (writeRows ++ commandRows))) w := by
  rw [decodeByTable, tableRows, List.append_assoc, List.append_assoc]
  rfl

theorem firstHit_nil (w : Htw) : firstHit [] w = none := rfl

theorem firstHit_cons (r : TableRow) (rows : List TableRow) (w : Htw) :
    firstHit (r :: rows) w = if r.hits w = true then some (r.build w) else firstHit rows w := by
  unfold firstHit
  cases h : r.hits w <;> simp [h]

theorem firstHit_append (rows rows' : List TableRow) (w : Htw) :
    firstHit (rows ++ rows') w = (firstHit rows w).or (firstHit rows' w) := by
  simp [firstHit, List.find?_append, Option.map_or]

theorem firstHit_append_of_none {rows : List TableRow} {w : Htw} (h : firstHit rows w = none) (rest : List TableRow) :
    firstHit (rows ++ rest) w = firstHit rest w := by
  rw [firstHit_append, h, Option.none_or]

/-- Packed words are equal exactly where their fields are (R85). -/
theorem packHtw_eq_iff {we : Bool} {rsv : BitVec 3} {off : Offset} {d : Word} {m : Htw} :
    packHtw we rsv off d = m ↔ we = htwWe m ∧ rsv = htwRsv m ∧ off = htwOffset m ∧ d = htwWdata m := by
  constructor
  · rintro rfl
    simp
  · rintro ⟨rfl, rfl, rfl, rfl⟩
    exact packHtw_fields m

/-- A read row or a write row goes by WE, RSV and OFFSET (R94). -/
theorem registerRow_hits (m : Htw) (b : Htw → Instr) (we : Bool) (rsv : BitVec 3) (off : Offset) (d : Word) :
    (TableRow.mk 0xFFFF00000000#48 m b).hits (packHtw we rsv off d) = true ↔
      we = htwWe m ∧ rsv = htwRsv m ∧ off = htwOffset m ∧ 0#32 = htwWdata m := by
  rw [TableRow.hits, Laws.packHtw_and_registerMask, beq_iff_eq, packHtw_eq_iff]

/-- A command row goes by the whole word (R90). -/
theorem commandRow_hits (m : Htw) (b : Htw → Instr) (we : Bool) (rsv : BitVec 3) (off : Offset) (d : Word) :
    (TableRow.mk 0xFFFFFFFFFFFF#48 m b).hits (packHtw we rsv off d) = true ↔
      we = htwWe m ∧ rsv = htwRsv m ∧ off = htwOffset m ∧ d = htwWdata m := by
  rw [TableRow.hits, show (0xFFFFFFFFFFFF#48) = BitVec.allOnes 48 by decide, BitVec.and_allOnes, beq_iff_eq,
    packHtw_eq_iff]

/-- The two unmapped rows, which stand last, go by WE alone (R86). -/
theorem weRow_hits (m : Htw) (b : Htw → Instr) (we : Bool) (rsv : BitVec 3) (off : Offset) (d : Word) :
    (TableRow.mk 0x800000000000#48 m b).hits (packHtw we rsv off d) = true ↔
      we = htwWe m ∧ 0#3 = htwRsv m ∧ 0#12 = htwOffset m ∧ 0#32 = htwWdata m := by
  rw [TableRow.hits, Laws.packHtw_and_weMask, beq_iff_eq, packHtw_eq_iff]

/-- An RSV row goes by its one bit (R88). -/
theorem rsvRow_hits {k : Nat} (hk : k < 48) {m : Htw} (hm : m = BitVec.twoPow 48 k) (b : Htw → Instr) (w : Htw) :
    (TableRow.mk m m b).hits w = true ↔ w.getLsbD k = true := by
  subst hm
  refine ⟨fun h => ?_, fun h => Laws.hits_rsvBit h b⟩
  have hbit := congrArg (fun v : Htw => v.getLsbD k) (beq_iff_eq.mp h)
  simpa [hk] using hbit

theorem htwRsv_eq_zero_iff (w : Htw) :
    htwRsv w = 0#3 ↔ w.getLsbD 46 = false ∧ w.getLsbD 45 = false ∧ w.getLsbD 44 = false := by
  have hzero : ∀ r : BitVec 3, r = 0#3 ↔ r.getLsbD 2 = false ∧ r.getLsbD 1 = false ∧ r.getLsbD 0 = false := by decide
  rw [hzero, htwRsv_getLsbD w (by decide), htwRsv_getLsbD w (by decide), htwRsv_getLsbD w (by decide)]

/-! ### The parts of the table, each on the words that reach it -/

/-- The RSV rows take exactly the words with RSV != 0 (R88). -/
theorem firstHit_rsvRows (w : Htw) :
    firstHit rsvRows w = if htwRsv w = 0#3 then none else some (decode w) := by
  simp only [rsvRows, firstHit_cons, firstHit_nil, htwRsv_eq_zero_iff, decode,
    rsvRow_hits (k := 46) (by decide) (show 0x400000000000#48 = _ by decide),
    rsvRow_hits (k := 45) (by decide) (show 0x200000000000#48 = _ by decide),
    rsvRow_hits (k := 44) (by decide) (show 0x100000000000#48 = _ by decide)]
  cases w.getLsbD 46
  case true => rfl
  case false =>
    cases w.getLsbD 45
    case true => rfl
    case false => cases w.getLsbD 44 <;> rfl

/-- A read goes past the write rows and the command rows to the unmapped catch-all. -/
theorem firstHit_afterReads_read (off : Offset) (d : Word) :
    firstHit (writeRows ++ commandRows) (packHtw false 0#3 off d) = some (.rdUnmapped off) := by
  have hwrite : firstHit writeRows (packHtw false 0#3 off d) = none := by
    simp [writeRows, firstHit_cons, firstHit_nil, writeRow, registerRow_hits, htwWe]
  rw [firstHit_append_of_none hwrite]
  simp only [commandRows, firstHit_cons, commandRow, commandRow_hits, writeRow, registerRow_hits, weRow_hits,
    htwOffset_packHtw]
  simp [htwWe, htwRsv, htwOffset, htwWdata]

/-- The read rows are the chain of `decodeRead`. -/
theorem firstHit_reads (off : Offset) (d : Word) :
    firstHit (readRows ++ (writeRows ++ commandRows)) (packHtw false 0#3 off d) = some (decodeRead off) := by
  simp only [readRows, List.cons_append, List.nil_append, firstHit_cons, firstHit_afterReads_read, readRow,
    registerRow_hits, decodeRead, apply_ite some]
  simp only [htwWe, htwRsv, htwOffset, htwWdata, BitVec.reduceGetLsb, BitVec.reduceExtractLsb', true_and, and_true]

/-- The command rows are the chain of `decodeCommand`. -/
theorem firstHit_writes_cmd (d : Word) :
    firstHit (writeRows ++ commandRows) (packHtw true 0#3 (regOffset .cmd) d) = some (decodeCommand d) := by
  have hwrite : firstHit writeRows (packHtw true 0#3 (regOffset .cmd) d) = none := by
    simp [writeRows, firstHit_cons, firstHit_nil, writeRow, registerRow_hits, regOffset, htwOffset]
  rw [firstHit_append_of_none hwrite]
  simp only [commandRows, firstHit_cons, commandRow, commandRow_hits, writeRow, registerRow_hits, decodeCommand,
    apply_ite some, regOffset, htwWdata_packHtw]
  simp only [htwWe, htwRsv, htwOffset, htwWdata, BitVec.reduceGetLsb, BitVec.reduceExtractLsb', true_and, and_true,
    if_true]

/-- The write rows are the chain of `decodeWrite`, but for CMD, which they leave to the command rows. -/
theorem firstHit_writes_other {off : Offset} (h : off ≠ regOffset .cmd) (d : Word) :
    firstHit (writeRows ++ commandRows) (packHtw true 0#3 off d) = some (decodeWrite off d) := by
  have hcmd : off ≠ 0x004#12 := h
  have hlast : firstHit commandRows (packHtw true 0#3 off d) = some (.wrUnmapped off d) := by
    simp only [commandRows, firstHit_cons, commandRow, commandRow_hits, writeRow, registerRow_hits, weRow_hits,
      htwOffset_packHtw, htwWdata_packHtw]
    simp [htwWe, htwRsv, htwOffset, htwWdata, hcmd]
  simp only [writeRows, List.cons_append, List.nil_append, firstHit_cons, hlast, writeRow, registerRow_hits,
    decodeWrite, if_neg hcmd, apply_ite some, htwWdata_packHtw]
  simp only [htwWe, htwRsv, htwOffset, htwWdata, BitVec.reduceGetLsb, BitVec.reduceExtractLsb', true_and, and_true]

theorem firstHit_writes (off : Offset) (d : Word) :
    firstHit (readRows ++ (writeRows ++ commandRows)) (packHtw true 0#3 off d) = some (decodeWrite off d) := by
  have hread : firstHit readRows (packHtw true 0#3 off d) = none := by
    simp [readRows, firstHit_cons, firstHit_nil, readRow, registerRow_hits, htwWe]
  rw [firstHit_append_of_none hread]
  by_cases h : off = regOffset .cmd
  · subst h
    exact firstHit_writes_cmd d
  · exact firstHit_writes_other h d

/-- Settles O3: the RSV rows take the words with RSV != 0; of the rest, the reads run through the read rows, and the
writes through the write and command rows, as the decoder's chains do. -/
theorem decoderFollowsTheTable : Obligations.DecoderFollowsTheTable := by
  intro w
  obtain ⟨we, rsv, off, d, rfl⟩ := exists_packHtw w
  rw [decodeByTable_eq]
  by_cases hrsv : rsv = 0#3
  · subst hrsv
    have hskip : firstHit rsvRows (packHtw we 0#3 off d) = none := by rw [firstHit_rsvRows, htwRsv_packHtw, if_pos rfl]
    rw [firstHit_append_of_none hskip, decode_packHtw_rsv0]
    cases we
    case false => exact firstHit_reads off d
    case true => exact firstHit_writes off d
  · rw [firstHit_append, firstHit_rsvRows, htwRsv_packHtw, if_neg hrsv, Option.some_or]

/-! ### The words of the spec -/

/-- Settles O4: each form of RSV decodes to its RSV row, whose arm refuses. -/
theorem rsvWordsAreRefused : Obligations.RsvWordsAreRefused := by
  refine ⟨fun we rsv off d s h => ?_, fun _ _ _ _ _ => rfl, fun _ _ _ _ _ => rfl, fun _ _ _ _ => rfl⟩
  obtain ⟨low, -, hrow⟩ | ⟨low, -, hrow⟩ | ⟨-, hrow⟩ := decode_rsv_cases we h off d
  all_goals
    rw [hrow]
    rfl

/-- Settles O5: each is one closed evaluation of the decoder. -/
theorem specExampleWordsDecode : Obligations.SpecExampleWordsDecode := by
  unfold Obligations.SpecExampleWordsDecode
  decide

end Sys2Proof
end

section
/-! SUPPORT. The register family (40_register_access.md): the word that each register replies, the busy guard, and what
each write takes from WDATA. -/

namespace Sys2Proof

/-! ### Decoding a register transaction (R86, R94) -/

/-- A read goes by its OFFSET alone, whatever WDATA its word carries (R87). -/
theorem decode_read {off : Offset} {i : Instr} (h : decodeRead off = i) (d : Word) :
    decode (packHtw false 0#3 off d) = i :=
  (decode_packHtw_rsv0 false off d).trans h

theorem decode_write {off : Offset} {d : Word} {i : Instr} (h : decodeWrite off d = i) :
    decode (packHtw true 0#3 off d) = i :=
  (decode_packHtw_rsv0 true off d).trans h

/-- The offsets without a register: the misaligned ones, and those past LAYOUT (R22). -/
theorem mappedOffset_eq_false_iff {off : Offset} :
    mappedOffset off = false ↔ off.toNat % 4 ≠ 0 ∨ 0x044 < off.toNat := by
  rw [mappedOffset, Bool.and_eq_false_iff, beq_eq_false_iff_ne, decide_eq_false_iff_not, Nat.not_le]

end Sys2Proof

namespace Sys2Proof.Machine

open Sys2Proof.Safety

/-! ### The register words, bit by bit

Each word is an append of its fields; `happ` says so at the sum of their widths, which the append lemmas read. -/

/-- STATUS has its flags in bits 0 to 4, and 0 above (R24). -/
theorem statusWord_getLsbD (s : State) (k : Nat) :
    (statusWord s).getLsbD k =
      match k with
      | 0 => s.busy
      | 1 => s.cubeReady
      | 2 => errPending s
      | 3 => s.done
      | 4 => irq s
      | _ + 5 => false := by
  have happ : statusWord s = (0#27 ++ BitVec.ofBool (irq s) ++ BitVec.ofBool s.done ++ BitVec.ofBool (errPending s) ++
      BitVec.ofBool s.cubeReady ++ BitVec.ofBool s.busy : BitVec (27 + 1 + 1 + 1 + 1 + 1)) := rfl
  rw [happ]
  simp only [BitVec.getLsbD_append, BitVec.getLsbD_ofBool]
  match k with
  | 0 | 1 | 2 | 3 | 4 | _ + 5 => simp

/-- ERR has CODE, OVF and INFO at their places, and 0 between (R28). -/
theorem errWord_fields (e : ErrRecord) :
    (errWord e).extractLsb' 0 8 = errCodeValue e.code ∧ (errWord e).getLsbD 8 = e.ovf ∧
      (errWord e).extractLsb' 9 7 = 0#7 ∧ (errWord e).extractLsb' 16 16 = e.info := by
  have happ : errWord e =
      (e.info ++ 0#7 ++ BitVec.ofBool e.ovf ++ errCodeValue e.code : BitVec (16 + 7 + 1 + 8)) := rfl
  simp (disch := decide) only [happ, BitVec.extractLsb'_append_eq_of_le, BitVec.extractLsb'_append_eq_of_add_le,
    BitVec.extractLsb'_eq_self, BitVec.getLsbD_append, BitVec.getLsbD_ofBool, Nat.reduceSub, decide_true, Bool.true_and,
    Nat.lt_irrefl, Nat.zero_lt_one, if_false, if_true, and_self]

theorem intStatusWord_eq (s : State) : intStatusWord s = if s.done then 1#32 else 0#32 := by
  cases h : s.done <;> simp [intStatusWord, h]

/-- INT_ENABLE has DONE_IE in bit 0 and ERR_IE in bit 1, and 0 above (R30). -/
theorem intEnableWord_fields (s : State) :
    (intEnableWord s).getLsbD 0 = s.doneIe ∧ (intEnableWord s).getLsbD 1 = s.errIe ∧
      (intEnableWord s).extractLsb' 2 30 = 0#30 := by
  have hbits : ∀ errIe doneIe : Bool,
      ((BitVec.ofBool errIe ++ BitVec.ofBool doneIe).zeroExtend 32).getLsbD 0 = doneIe ∧
      ((BitVec.ofBool errIe ++ BitVec.ofBool doneIe).zeroExtend 32).getLsbD 1 = errIe ∧
      ((BitVec.ofBool errIe ++ BitVec.ofBool doneIe).zeroExtend 32).extractLsb' 2 30 = 0#30 := by decide
  exact hbits s.errIe s.doneIe

/-- CFG has FMT, MODE and ALIGN_LOG2 at their places, and 0 in its reserved bits (R31). -/
theorem cfgWord_fields (c : Cfg) :
    (cfgWord c).extractLsb' 0 4 = formatCode c.fmt ∧ (cfgWord c).extractLsb' 4 2 = modeCode c.mode ∧
      (cfgWord c).extractLsb' 6 2 = 0#2 ∧ (cfgWord c).extractLsb' 8 3 = c.alignLog2 ∧
      (cfgWord c).extractLsb' 11 21 = 0#21 := by
  have happ : cfgWord c =
      (0#21 ++ c.alignLog2 ++ 0#2 ++ modeCode c.mode ++ formatCode c.fmt : BitVec (21 + 3 + 2 + 2 + 4)) := rfl
  simp (disch := decide) only [happ, BitVec.extractLsb'_append_eq_of_le, BitVec.extractLsb'_append_eq_of_add_le,
    BitVec.extractLsb'_eq_self, Nat.reduceSub, and_self]

/-- The LAYOUT words as R38 lists them. -/
def layoutTable : List (PixelFormat × Word) :=
  [(.rgb24, 0x00000324#32), (.bgr24, 0x00000306#32), (.rgba, 0x00001CE4#32), (.bgra, 0x00001CC6#32),
    (.abgr, 0x00001C1B#32), (.argb, 0x00001C39#32), (.zbgr, 0x00000C1B#32), (.zrgb, 0x00000C39#32),
    (.rgbz, 0x00000CE4#32), (.bgrz, 0x00000CC6#32)]

theorem layoutWord_of_mem_layoutTable {f : PixelFormat} {v : Word} (h : (f, v) ∈ layoutTable) : layoutWord f = v := by
  have hrows : ∀ row ∈ layoutTable, layoutWord row.1 = row.2 := by decide
  exact hrows (f, v) h

/-! ### The codes of CFG's fields (R32, R33) -/

theorem formatOfCode_reserved {c : BitVec 4} (h : 9 < c.toNat) : formatOfCode c = none := by
  revert c
  decide

theorem formatOfCode_legal {c : BitVec 4} (h : c.toNat ≤ 9) : ∃ f, formatOfCode c = some f ∧ formatCode f = c := by
  have hcode : ∀ c : BitVec 4, c.toNat ≤ 9 →
      ∃ f ∈ [PixelFormat.rgb24, .bgr24, .rgba, .bgra, .abgr, .argb, .zbgr, .zrgb, .rgbz, .bgrz],
        formatOfCode c = some f ∧ formatCode f = c := by decide
  obtain ⟨f, -, hf⟩ := hcode c h
  exact ⟨f, hf⟩

theorem modeOfCode_reserved {c : BitVec 2} (h : 1 < c.toNat) : modeOfCode c = none := by
  revert c
  decide

theorem modeOfCode_legal {c : BitVec 2} (h : c.toNat ≤ 1) : ∃ m, modeOfCode c = some m ∧ modeCode m = c := by
  have hcode : ∀ c : BitVec 2, c.toNat ≤ 1 →
      ∃ m ∈ [LutMode.clut, .cube], modeOfCode c = some m ∧ modeCode m = c := by decide
  obtain ⟨m, -, hm⟩ := hcode c h
  exact ⟨m, hm⟩

/-! ### Ends of register transactions -/

/-- A completion read with BUSY = 0 leaves none of the job's writes unordered, and with BUSY = 1 orders nothing
(R74). -/
theorem endRead_seeCompletion (s : State) (v : Word) :
    endRead (seeCompletion s) v = .next { s with reply := .word v, stale := if s.busy then s.stale else [] } := by
  rw [endRead_eq]
  by_cases hb : s.busy = true
  · rw [seeCompletion_of_busy s hb, if_pos hb]
  · rw [seeCompletion_of_idle s (Bool.eq_false_iff.mpr hb), if_neg hb]

/-- A busy-guarded write is refused while BUSY = 1, and else ends in its own state (R100). -/
theorem guardWrite_endWrite (s t : State) (off : Offset) :
    guardWrite s off (endWrite t) = .next (if s.busy then
      { s with err := recordedError s .busy (off.zeroExtend 16), reply := .nothing }
      else { t with reply := .nothing }) := by
  by_cases hb : s.busy = true
  · rw [guardWrite_busy hb, if_pos hb]
  · rw [guardWrite_idle (Bool.eq_false_iff.mpr hb), endWrite_eq, if_neg hb]

/-! ### The busy guard -/

/-- Settles O16: each of the transactions is its own result behind the busy guard. -/
theorem busyGuardRefuses : Obligations.BusyGuardRefuses := by
  refine fun s d hb => ⟨fun i off h => ?_, fun i off h => ?_⟩
  · simp only [List.mem_cons, Prod.mk.injEq, List.not_mem_nil, or_false] at h
    obtain ⟨rfl, rfl⟩ | ⟨rfl, rfl⟩ | ⟨rfl, rfl⟩ | ⟨rfl, rfl⟩ | ⟨rfl, rfl⟩ | ⟨rfl, rfl⟩ | ⟨rfl, rfl⟩ | ⟨rfl, rfl⟩ |
      ⟨rfl, rfl⟩ | ⟨rfl, rfl⟩ | ⟨rfl, rfl⟩ | ⟨rfl, rfl⟩ | ⟨rfl, rfl⟩ | ⟨rfl, rfl⟩ := h
    all_goals exact guardWrite_busy hb _ _
  · simp only [List.mem_cons, Prod.mk.injEq, List.not_mem_nil, or_false] at h
    obtain ⟨rfl, rfl⟩ | ⟨rfl, rfl⟩ := h
    all_goals exact guardRead_busy hb _ _

/-! ### Register reads -/

/-- Settles O17: both replies are constants, and the decoder drops WDATA. -/
theorem idAndCmdReads : Obligations.IdAndCmdReads :=
  ⟨fun d => ⟨decode_read rfl d, decode_read rfl d⟩, fun s => ⟨endRead_eq s _, endRead_eq s _⟩⟩

/-- Settles O18: the reply is `statusWord`. -/
theorem statusRead : Obligations.StatusRead := by
  refine ⟨decode_read rfl, fun s => ⟨statusWord s, endRead_seeCompletion s _, ?_⟩⟩
  refine ⟨statusWord_getLsbD s 0, statusWord_getLsbD s 1, statusWord_getLsbD s 2, statusWord_getLsbD s 3,
    statusWord_getLsbD s 4, fun k hk => ?_⟩
  obtain ⟨j, rfl⟩ := Nat.exists_eq_add_of_le' hk
  exact statusWord_getLsbD s (j + 5)

/-- Settles O19: the replies are `errWord` and `intStatusWord`. -/
theorem errAndIntStatusReads : Obligations.ErrAndIntStatusReads := by
  refine ⟨fun d => ⟨decode_read rfl d, decode_read rfl d⟩, fun s => ⟨?_, ?_⟩⟩
  · exact ⟨errWord s.err, endRead_seeCompletion s _, errWord_fields s.err⟩
  · rw [← intStatusWord_eq]
    exact endRead_seeCompletion s _

/-- Settles O20: the replies are `intEnableWord` and `cfgWord`. -/
theorem intEnableAndCfgReads : Obligations.IntEnableAndCfgReads := by
  refine ⟨fun d => ⟨decode_read rfl d, decode_read rfl d⟩, fun s => ⟨?_, ?_⟩⟩
  · exact ⟨intEnableWord s, endRead_eq s _, intEnableWord_fields s⟩
  · exact ⟨cfgWord s.cfg, endRead_eq s _, cfgWord_fields s.cfg⟩

/-- Settles O21: WIDTH and HEIGHT are extended to the reply's 32 bits, and the other four have them. -/
theorem geometryReads : Obligations.GeometryReads := by
  refine ⟨fun d => ?_, fun s => ?_⟩
  · exact ⟨decode_read rfl d, decode_read rfl d, decode_read rfl d, decode_read rfl d, decode_read rfl d,
      decode_read rfl d⟩
  · rw [BitVec.ofNat_toNat, BitVec.ofNat_toNat]
    exact ⟨endRead_eq s _, endRead_eq s _, endRead_eq s _, endRead_eq s _, endRead_eq s _, endRead_eq s _⟩

/-- Settles O22: the format's row of R38 is the reply. -/
theorem layoutRead : Obligations.LayoutRead := by
  refine ⟨decode_read rfl, fun s v h => ?_⟩
  rw [← layoutWord_of_mem_layoutTable h]
  exact endRead_eq s _

/-- Settles O23: an offset without a register falls through the decoder's chain. -/
theorem unmappedRead : Obligations.UnmappedRead :=
  ⟨fun _ d h => decode_read (decodeRead_unmapped (mappedOffset_eq_false_iff.mpr h)) d, fun _ s => endRead_eq s _⟩

/-! ### Register writes -/

/-- Settles O24: each is `refuseBadReg` at its own offset, with no guard before it. -/
theorem readOnlyAndUnmappedWritesRefused : Obligations.ReadOnlyAndUnmappedWritesRefused := by
  refine ⟨fun d => ⟨decode_write rfl, decode_write rfl, decode_write rfl, decode_write rfl⟩, fun off d h => ?_,
    fun s d => ⟨refuseBadReg_eq s _, refuseBadReg_eq s _, refuseBadReg_eq s _, refuseBadReg_eq s _, fun off => ?_⟩⟩
  · exact decode_write (decodeWrite_unmapped (mappedOffset_eq_false_iff.mpr h) d)
  · rw [BitVec.ofNat_toNat]
    exact refuseBadReg_eq s off

theorem execWrIntStatus_eq (d : Word) (s : State) :
    execWrIntStatus d s = .next { s with done := s.done && !operandDoneClear d, reply := .nothing } := by
  cases h : operandDoneClear d <;> simp [execWrIntStatus, h]

/-- Settles O25: WDATA[0] = 1 clears DONE and WDATA[0] = 0 keeps it; INT_ENABLE takes its two bits. -/
theorem interruptRegisterWrites : Obligations.InterruptRegisterWrites := by
  refine ⟨fun d => ⟨decode_write rfl, decode_write rfl⟩, fun s d => ⟨execWrIntStatus_eq d s, endWrite_eq _⟩⟩

theorem execWrCfg_reservedFmt {s : State} (hb : s.busy = false) {d : Word}
    (hfmt : formatOfCode (operandFmt d) = none) :
    execWrCfg d s = refuseWrite s .cfgFormat ((operandFmt d).zeroExtend 16) := by
  rw [execWrCfg, guardWrite_idle hb, hfmt]

theorem execWrCfg_reservedMode {s : State} (hb : s.busy = false) {d : Word} {f : PixelFormat}
    (hfmt : formatOfCode (operandFmt d) = some f) (hmode : modeOfCode (operandMode d) = none) :
    execWrCfg d s = refuseWrite s .cfgMode ((operandMode d).zeroExtend 16) := by
  rw [execWrCfg, guardWrite_idle hb, hfmt, hmode]

theorem execWrCfg_legal {s : State} (hb : s.busy = false) {d : Word} {f : PixelFormat} {m : LutMode}
    (hfmt : formatOfCode (operandFmt d) = some f) (hmode : modeOfCode (operandMode d) = some m) :
    execWrCfg d s = endWrite { s with cfg := ⟨f, m, operandAlignLog2 d⟩ } := by
  rw [execWrCfg, guardWrite_idle hb, hfmt, hmode]

/-- Settles O26: the guard, then FMT, then MODE, each by what its code stands for. -/
theorem cfgWrite : Obligations.CfgWrite := by
  refine ⟨fun d => decode_write rfl, fun s d => ⟨fun hb => guardWrite_busy hb _ _, fun hb hfmt => ?_,
    fun hb hfmt hmode => ?_, fun hb hfmt hmode => ?_⟩⟩
  · rw [BitVec.ofNat_toNat, ← refuseWrite_eq]
    exact execWrCfg_reservedFmt hb (formatOfCode_reserved hfmt)
  · obtain ⟨f, hf, -⟩ := formatOfCode_legal hfmt
    rw [BitVec.ofNat_toNat, ← refuseWrite_eq]
    exact execWrCfg_reservedMode hb hf (modeOfCode_reserved hmode)
  · obtain ⟨f, hf, hfcode⟩ := formatOfCode_legal hfmt
    obtain ⟨m, hm, hmcode⟩ := modeOfCode_legal hmode
    exact ⟨f, m, hfcode, hmcode, execWrCfg_legal hb hf hm⟩

/-- Settles O27: each is a guarded write of its one field. -/
theorem geometryWrites : Obligations.GeometryWrites := by
  refine ⟨fun d => ?_, fun s d => ?_⟩
  · exact ⟨decode_write rfl, decode_write rfl, decode_write rfl, decode_write rfl, decode_write rfl, decode_write rfl⟩
  · exact ⟨guardWrite_endWrite s _ _, guardWrite_endWrite s _ _, guardWrite_endWrite s _ _,
      guardWrite_endWrite s _ _, guardWrite_endWrite s _ _, guardWrite_endWrite s _ _⟩

end Sys2Proof.Machine
end

section
/-! SUPPORT. The commands (41_commands.md): what START refuses and what it begins, the commands that write CUBE_READY,
and those that BUSY does not guard. -/

namespace Sys2Proof.Machine

open Sys2Proof.Safety

/-! ### The checks of START in exact arithmetic (R165 to R172) -/

/-- `STEP(fmt)` by the FMT code: codes 0 and 1 are the 3-byte formats (R32, R166). -/
theorem stepOf_eq (f : PixelFormat) : stepOf f = if formatCode f = 0#4 ∨ formatCode f = 1#4 then 3 else 4 := by
  cases f <;> rfl

theorem emptyFrame_iff {s : State} : emptyFrame s = true ↔ s.width.toNat = 0 ∨ s.height.toNat = 0 := by
  simp [emptyFrame, ← BitVec.toNat_inj]

theorem isInplace_iff {s : State} :
    isInplace s = true ↔ s.srcBase.toNat = s.dstBase.toNat ∧ s.srcStride.toNat = s.dstStride.toNat := by
  simp [isInplace, BitVec.toNat_inj]

theorem isInplace_eq (s : State) : isInplace s =
    decide (s.srcBase.toNat = s.dstBase.toNat ∧ s.srcStride.toNat = s.dstStride.toNat) := by
  rw [Bool.eq_iff_iff, isInplace_iff, decide_eq_true_iff]

theorem aligned_eq_false_iff {s : State} {v : Word} : aligned s v = false ↔ v.toNat % alignment s ≠ 0 := by
  simp [aligned]

theorem overlaps_iff {s : State} : overlaps s = true ↔ s.srcBase.toNat < dstEnd s ∧ s.dstBase.toNat < srcEnd s := by
  simp [overlaps]

/-- What follows from the geometry checks, check by check (R167 to R170). -/
theorem geometryError_elim {α : Type} (s : State) (pass : α) (fail : ErrCode × BitVec 16 → α) :
    (geometryError s).elim pass fail =
      if s.srcStride.toNat < rowBytes s then fail (.stride, 0#16)
      else if s.dstStride.toNat < rowBytes s then fail (.stride, 1#16)
      else if s.srcBase.toNat % alignment s ≠ 0 then fail (.align, 0#16)
      else if s.srcStride.toNat % alignment s ≠ 0 then fail (.align, 1#16)
      else if s.dstBase.toNat % alignment s ≠ 0 then fail (.align, 2#16)
      else if s.dstStride.toNat % alignment s ≠ 0 then fail (.align, 3#16)
      else if srcEnd s > 2 ^ 32 then fail (.range, 0#16)
      else if dstEnd s > 2 ^ 32 then fail (.range, 1#16)
      else if ¬(s.srcBase.toNat = s.dstBase.toNat ∧ s.srcStride.toNat = s.dstStride.toNat) ∧
          s.srcBase.toNat < dstEnd s ∧ s.dstBase.toNat < srcEnd s then fail (.overlap, 0#16)
      else pass := by
  simp only [geometryError, Config.addressSpace, apply_ite (Option.elim · pass fail), Option.elim_some,
    Option.elim_none, Bool.and_eq_true, Bool.not_eq_true', aligned_eq_false_iff, overlaps_iff, ← isInplace_iff,
    Bool.not_eq_true]

/-! ### START -/

/-- The error that START raises, if it raises one (R165). ERR is not among what the checks read. -/
def startRefusal (s : State) : Option (ErrCode × BitVec 16) :=
  if s.busy = true then some (.busy, 0x0004#16)
  else if s.cfg.mode = .cube ∧ s.cubeReady = false then some (.cubeNotReady, 0#16)
  else if emptyFrame s = true then none
  else geometryError s

/-- Past the first two checks START refuses what the geometry checks do, and never an empty frame. -/
theorem startRefusal_of_ready {s : State} (hb : s.busy = false) (hr : s.cfg.mode = .cube → s.cubeReady = true) :
    startRefusal s = if emptyFrame s = true then none else geometryError s := by
  have hcube : ¬(s.cfg.mode = .cube ∧ s.cubeReady = false) := fun h => by simp [hr h.1] at h
  rw [startRefusal, if_neg (by simp [hb]), if_neg hcube]

/-- What follows from the refusal, check by check (R165). -/
theorem startRefusal_elim {α : Type} (s : State) (pass : α) (fail : ErrCode × BitVec 16 → α) :
    (startRefusal s).elim pass fail =
      if s.busy = true then fail (.busy, 0x0004#16)
      else if s.cfg.mode = .cube ∧ s.cubeReady = false then fail (.cubeNotReady, 0#16)
      else if emptyFrame s = true then pass
      else (geometryError s).elim pass fail := by
  simp only [startRefusal, apply_ite (Option.elim · pass fail), Option.elim_some, Option.elim_none]

/-- A START that nothing refuses: DONE at once for an empty frame (R171), and else a job (R173). -/
def startedState (s : State) : State :=
  if emptyFrame s = true then { s with done := true, reply := .nothing } else { acceptJob s with reply := .nothing }

theorem startedState_of_empty {s : State} (he : emptyFrame s = true) :
    startedState s = { s with done := true, reply := .nothing } := if_pos he

theorem startedState_of_nonempty {s : State} (he : emptyFrame s = false) :
    startedState s = { acceptJob s with reply := .nothing } := if_neg (by simp [he])

/-- START records its refusal and does nothing else, or goes on to the started state. -/
theorem exec_cmdStart (s : State) :
    exec .cmdStart s = .next ((startRefusal s).elim (startedState s)
      fun e => { s with err := recordedError s e.1 e.2, reply := .nothing }) := by
  obtain ⟨hb, e⟩ | ⟨hb, hm, hr, e⟩ | ⟨hb, hr, he, e⟩ | ⟨hb, hr, he, c, n, hg, e⟩ | ⟨hb, hr, he, hg, e⟩ :=
    startJob_cases s
  all_goals refine Eq.trans e ?_
  · simp [startRefusal, hb]
  · simp [startRefusal, hb, hm, hr]
  · simp [startRefusal_of_ready hb hr, startedState_of_empty he, he]
  · simp [startRefusal_of_ready hb hr, he, hg]
  · simp [startRefusal_of_ready hb hr, startedState_of_nonempty he, he, hg]

/-- Settles O35: an empty frame ends the chain before the geometry checks, which are `geometryError_elim`. -/
theorem startChecksInOrder : Obligations.StartChecksInOrder := by
  refine ⟨by decide, fun s => ?_⟩
  simp only [exec_cmdStart, startRefusal_elim, geometryError_elim, ← stepOf_eq, ← emptyFrame_iff, ← isInplace_eq]
  cases he : emptyFrame s with
  | true => simp only [startedState_of_empty he, if_true]
  | false =>
    rw [startedState_of_nonempty he]
    rfl

/-- Settles O36: nothing refuses such a START, and the accepted job is legal. -/
theorem legalStartIsAccepted : Obligations.LegalStartIsAccepted := by
  intro s hb hr he hg
  have hnone : startRefusal s = none := by simp [startRefusal_of_ready hb hr, he, hg]
  refine ⟨{ acceptJob s with reply := .nothing }, ?_, rfl, acceptJob_legal hr he hg, rfl, rfl, rfl⟩
  rw [exec_cmdStart, hnone, Option.elim_none, startedState_of_nonempty he]

theorem startedState_err (s : State) : (startedState s).err = s.err := by
  cases he : emptyFrame s
  · rw [startedState_of_nonempty he, acceptJob_err]
  · rw [startedState_of_empty he]

/-- An error that START raises is its refusal, which is the same whatever ERR holds. -/
theorem startRefusal_of_raises {s : State} {c : ErrCode} {n : BitVec 16} (h : Raises .cmdStart s c n) :
    startRefusal s = some (c, n) := by
  obtain ⟨u, hu, rfl, rfl, hne⟩ := h
  obtain rfl := Host.Outcome.next.inj ((exec_cmdStart _).symm.trans hu)
  have hsame : startRefusal { s with err := ⟨.noError, false, 0#16⟩ } = startRefusal s := rfl
  cases hrefusal : startRefusal s with
  | none => simp [hsame, hrefusal, startedState_err] at hne
  | some e => simp [hsame, hrefusal]

/-- Settles O37: a refusal is recorded in ERR, and nothing else changes but the reply. -/
theorem refusedStartLeavesDone : Obligations.RefusedStartLeavesDone := by
  intro s c n h
  refine ⟨{ s with err := recordedError s c n, reply := .nothing }, ?_, rfl, rfl, rfl, rfl⟩
  rw [exec_cmdStart, startRefusal_of_raises h, Option.elim_some]

/-! ### The other commands -/

/-- Settles O33: none of the three is guarded, and a word past the five commands is reserved. -/
theorem unguardedCommands : Obligations.UnguardedCommands := by
  refine ⟨⟨by decide, by decide, fun d hd => decode_write (decodeCommand_reserved ?_)⟩,
    fun s => ⟨endWrite_eq s, endWrite_eq _, fun d => refuseWrite_eq s _ _⟩⟩
  simpa [isCommandWord] using hd

/-- Settles O34: both are guarded writes of the one bit. -/
theorem cubeReadyCommands : Obligations.CubeReadyCommands :=
  ⟨by decide, fun s => ⟨guardWrite_endWrite s _ _, guardWrite_endWrite s _ _⟩⟩

end Sys2Proof.Machine
end

section
/-! SUPPORT. The LUT host port (42_lut_port.md): the index registers, the data windows, and the host sequences that load
a whole LUT (R158, R159). -/

namespace Sys2Proof.Machine

open Sys2Proof.Safety

/-! ### The index registers -/

/-- Settles O28: the reads have no guard, and each write is a guarded write of its one register. -/
theorem indexRegisters : Obligations.IndexRegisters := by
  refine ⟨fun d => ⟨decode_read rfl d, decode_write rfl, decode_read rfl d, decode_write rfl⟩, fun s d => ?_⟩
  rw [BitVec.ofNat_toNat, BitVec.ofNat_toNat]
  exact ⟨endRead_eq s _, endRead_eq s _, guardWrite_endWrite s _ _, guardWrite_endWrite s _ _⟩

/-! ### The data windows -/

/-- An index register advances with wrap-around (R152, R153, R156, R157). -/
theorem index_succ {w n : Nat} (hn : 2 ^ w = n) (i : BitVec w) :
    i + 1#w = BitVec.ofNat w ((i.toNat + 1) % n) := by
  subst hn
  apply BitVec.eq_of_toNat_eq
  simp

theorem execRdClutData_written {s : State} (hb : s.busy = false) {e : Byte}
    (he : s.clut.entry s.clutIndex.toNat = some e) :
    execRdClutData s = .next { s with clutIndex := s.clutIndex + 1#8, reply := .word (e.zeroExtend 32) } := by
  rw [execRdClutData, guardRead_idle hb, he]
  exact endRead_eq _ _

theorem execRdClutData_unwritten {s : State} (hb : s.busy = false) (he : s.clut.entry s.clutIndex.toNat = none) :
    execRdClutData s = .fault .lutUnwritten := by
  rw [execRdClutData, guardRead_idle hb, he]

theorem execRdCubeData_written {s : State} (hb : s.busy = false) {e : Key}
    (he : s.cube.entry s.cubeIndex.toNat = some e) :
    execRdCubeData s = .next { s with cubeIndex := s.cubeIndex + 1#24, reply := .word (e.zeroExtend 32) } := by
  rw [execRdCubeData, guardRead_idle hb, he]
  exact endRead_eq _ _

theorem execRdCubeData_unwritten {s : State} (hb : s.busy = false) (he : s.cube.entry s.cubeIndex.toNat = none) :
    execRdCubeData s = .fault .lutUnwritten := by
  rw [execRdCubeData, guardRead_idle hb, he]

theorem execWrClutData_idle {s : State} (hb : s.busy = false) (d : Word) :
    execWrClutData d s = .next { s with
      clut := s.clut.store s.clutIndex.toNat (d.extractLsb' 0 8), clutIndex := s.clutIndex + 1#8, reply := .nothing } :=
  guardWrite_idle hb _ _

theorem execWrCubeData_idle {s : State} (hb : s.busy = false) (d : Word) :
    execWrCubeData d s = .next { s with
      cube := s.cube.store s.cubeIndex.toNat (d.extractLsb' 0 24), cubeIndex := s.cubeIndex + 1#24,
      cubeReady := false, reply := .nothing } :=
  guardWrite_idle hb _ _

/-- Settles O29: past the guard, what each read does goes by the entry at its index. -/
theorem dataWindowReads : Obligations.DataWindowReads := by
  refine ⟨fun d => ⟨decode_read rfl d, decode_read rfl d⟩, fun s => ⟨fun hb => ?_, fun hb e he => ?_,
    fun hb e he => ?_, fun hb => execRdClutData_unwritten hb, fun hb => execRdCubeData_unwritten hb⟩⟩
  · exact ⟨guardRead_busy hb _ _, guardRead_busy hb _ _⟩
  · rw [BitVec.ofNat_toNat, ← index_succ (n := 256) rfl]
    exact execRdClutData_written hb he
  · rw [BitVec.ofNat_toNat, ← index_succ (n := 2 ^ 24) rfl]
    exact execRdCubeData_written hb he

/-- Settles O30: past the guard, a write is one `Lut.store`, which touches one entry. -/
theorem dataWindowWrites : Obligations.DataWindowWrites := by
  refine ⟨fun d => ⟨decode_write rfl, decode_write rfl⟩, fun s d => ⟨fun hb => ?_, fun hb => ?_, fun hb => ?_⟩⟩
  · exact ⟨guardWrite_busy hb _ _, guardWrite_busy hb _ _⟩
  · rw [← index_succ (n := 256) rfl]
    exact ⟨_, execWrClutData_idle hb d, rfl, Lut.entry_store_same .., fun j hj => Lut.entry_store_other _ _ hj.symm⟩
  · rw [← index_succ (n := 2 ^ 24) rfl]
    exact ⟨_, execWrCubeData_idle hb d, rfl, Lut.entry_store_same .., fun j hj => Lut.entry_store_other _ _ hj.symm⟩

/-! ### The contents that a load leaves -/

/-- The LUT with the low bits of one word after another stored, from entry `i` on. -/
def Lut.loadWords {w : Nat} (l : Lut w) (i : Nat) : List Word → Lut w
  | [] => l
  | d :: ds => (l.store i (d.extractLsb' 0 w)).loadWords (i + 1) ds

/-- A load leaves the entries before its first one alone. -/
theorem Lut.entry_loadWords_before {w : Nat} (l : Lut w) {i j : Nat} (h : j < i) (values : List Word) :
    (l.loadWords i values).entry j = l.entry j := by
  induction values generalizing l i with
  | nil => rfl
  | cons d ds ih =>
    calc ((l.store i (d.extractLsb' 0 w)).loadWords (i + 1) ds).entry j
        = (l.store i (d.extractLsb' 0 w)).entry j := ih _ (by omega)
      _ = l.entry j := Lut.entry_store_other l _ (by omega)

/-- A load leaves each of its words in the word's own entry. -/
theorem Lut.entry_loadWords {w : Nat} (l : Lut w) (i : Nat) (values : List Word) (k : Nat) (h : k < values.length) :
    (l.loadWords i values).entry (i + k) = some (values[k].extractLsb' 0 w) := by
  induction values generalizing l i k with
  | nil => cases h
  | cons d ds ih =>
    cases k with
    | zero => exact (Lut.entry_loadWords_before _ (by omega) ds).trans (Lut.entry_store_same l i _)
    | succ k =>
      rw [show i + (k + 1) = i + 1 + k by omega]
      exact ih _ (i + 1) k (by simpa using h)

/-- From entry 0 on, the word of place `k` is in entry `k`. -/
theorem Lut.entry_loadWords_zero {w : Nat} (l : Lut w) (values : List Word) (k : Nat) (h : k < values.length) :
    (l.loadWords 0 values).entry k = some (values[k].extractLsb' 0 w) := by
  simpa only [Nat.zero_add] using Lut.entry_loadWords l 0 values k h

/-! ### Running a load -/

/-- Where the next event is the word of a well-formed instruction after which DONE does not newly drive irq, the step
has that instruction's next state. -/
theorem step_encoded_next {i : Instr} (hi : i.wf = true) {s t : State} {rest : List Event}
    (h : s.inbox = .txn (encode i) :: rest) (ht : exec i { s with inbox := rest } = .next t)
    (hirq : doneDrives t = true → doneDrives s = true) : step s = .next t := by
  rw [step_encoded hi h, ht, settle_next, settleIrq_of_not (s := { s with inbox := rest }) hirq]

theorem step_wrClutIndex {s : State} (hb : s.busy = false) {d : Word} {rest : List Event}
    (h : s.inbox = .txn (encode (.wrClutIndex d)) :: rest) :
    step s = .next { s with clutIndex := d.extractLsb' 0 8, reply := .nothing, inbox := rest } :=
  step_encoded_next rfl h (guardWrite_idle (s := { s with inbox := rest }) hb _ _) id

theorem step_wrCubeIndex {s : State} (hb : s.busy = false) {d : Word} {rest : List Event}
    (h : s.inbox = .txn (encode (.wrCubeIndex d)) :: rest) :
    step s = .next { s with cubeIndex := d.extractLsb' 0 24, reply := .nothing, inbox := rest } :=
  step_encoded_next rfl h (guardWrite_idle (s := { s with inbox := rest }) hb _ _) id

theorem step_wrClutData {s : State} (hb : s.busy = false) {d : Word} {rest : List Event}
    (h : s.inbox = .txn (encode (.wrClutData d)) :: rest) :
    step s = .next { s with
      clut := s.clut.store s.clutIndex.toNat (d.extractLsb' 0 8), clutIndex := s.clutIndex + 1#8, reply := .nothing,
      inbox := rest } :=
  step_encoded_next rfl h (execWrClutData_idle (s := { s with inbox := rest }) hb d) id

theorem step_wrCubeData {s : State} (hb : s.busy = false) {d : Word} {rest : List Event}
    (h : s.inbox = .txn (encode (.wrCubeData d)) :: rest) :
    step s = .next { s with
      cube := s.cube.store s.cubeIndex.toNat (d.extractLsb' 0 24), cubeIndex := s.cubeIndex + 1#24,
      cubeReady := false, reply := .nothing, inbox := rest } :=
  step_encoded_next rfl h (execWrCubeData_idle (s := { s with inbox := rest }) hb d) id

theorem step_cmdCubeCommit {s : State} (hb : s.busy = false) {rest : List Event}
    (h : s.inbox = .txn (encode .cmdCubeCommit) :: rest) :
    step s = .next { s with cubeReady := true, reply := .nothing, inbox := rest } :=
  step_encoded_next rfl h (guardWrite_idle (s := { s with inbox := rest }) hb _ _) id

/-- Data writes through either window: `load l i events` is the machine with the LUT `l`, the index `i` and the events
`events` to come, and each write stores one word and advances the index. -/
theorem runFor_dataWrites {w : Nat} (load : Lut w → BitVec w → List Event → State) (event : Word → Event)
    (hstep : ∀ l i d rest, step (load l i (event d :: rest)) =
      .next (load (l.store i.toNat (d.extractLsb' 0 w)) (i + 1#w) rest))
    (values : List Word) (l : Lut w) (i k : Nat) (hi : i + values.length ≤ 2 ^ w) (rest : List Event) :
    runFor (values.length + k) (load l (BitVec.ofNat w i) (values.map event ++ rest)) =
      runFor k (load (l.loadWords i values) (BitVec.ofNat w (i + values.length)) rest) := by
  induction values generalizing l i with
  | nil => rw [List.length_nil, Nat.zero_add]; rfl
  | cons d ds ih =>
    rw [List.length_cons] at hi ⊢
    have hindex : (BitVec.ofNat w i).toNat = i := by rw [BitVec.toNat_ofNat, Nat.mod_eq_of_lt (by omega)]
    have hfirst := hstep l (BitVec.ofNat w i) d (ds.map event ++ rest)
    rw [hindex, ← BitVec.ofNat_add] at hfirst
    rw [show ds.length + 1 + k = ds.length + k + 1 by omega, show i + (ds.length + 1) = i + 1 + ds.length by omega]
    exact (runFor_succ_next hfirst).trans (ih _ (i + 1) (by omega))

/-- A CLUT load under way: the LUT and the index so far, and the events to come. -/
def State.loadingClut (s : State) (l : Lut 8) (i : BitVec 8) (events : List Event) : State :=
  { s with clut := l, clutIndex := i, reply := .nothing, inbox := events }

/-- A CUBE load under way, past its first data write: the LUT and the index so far, and the events to come. -/
def State.loadingCube (s : State) (l : Lut 24) (i : Key) (events : List Event) : State :=
  { s with cube := l, cubeIndex := i, cubeReady := false, reply := .nothing, inbox := events }

/-- Settles O31: the index is set to 0, and 256 data writes bring it round to 0 again. -/
theorem fullClutLoad : Obligations.FullClutLoad := by
  intro s values hb hlen hinbox
  have hset : step s = .next (s.loadingClut s.clut 0#8 (clutDataEvents values ++ [])) := by
    rw [List.append_nil]
    exact step_wrClutIndex hb hinbox
  have hdata := runFor_dataWrites s.loadingClut (fun d => .txn (encode (.wrClutData d)))
    (fun l i d rest => step_wrClutData (s := s.loadingClut l i _) hb rfl) values s.clut 0 0 (by omega) []
  refine ⟨s.loadingClut (s.clut.loadWords 0 values) 0#8 [], ?_, rfl, Lut.entry_loadWords_zero s.clut values⟩
  calc runFor (values.length + 1) s
      = runFor values.length (s.loadingClut s.clut 0#8 (clutDataEvents values ++ [])) := runFor_succ_next hset
    _ = runFor 0 (s.loadingClut (s.clut.loadWords 0 values) (BitVec.ofNat 8 (0 + values.length)) []) := hdata
    _ = .next (s.loadingClut (s.clut.loadWords 0 values) 0#8 []) := by rw [hlen]; rfl

/-- CUBE data writes from index 0 on: the first clears CUBE_READY, and the others keep it so (R157). -/
theorem runFor_cubeData {s : State} (hb : s.busy = false) (hi : s.cubeIndex = 0#24) {values : List Word}
    (hpos : 0 < values.length) (hle : values.length ≤ 2 ^ 24) {rest : List Event}
    (hinbox : s.inbox = cubeDataEvents values ++ rest) (k : Nat) :
    runFor (values.length + k) s =
      runFor k (s.loadingCube (s.cube.loadWords 0 values) (BitVec.ofNat 24 values.length) rest) := by
  obtain ⟨d, ds, rfl⟩ := List.exists_cons_of_length_pos hpos
  rw [List.length_cons] at hle ⊢
  have hfirst : step s =
      .next (s.loadingCube (s.cube.store 0 (d.extractLsb' 0 24)) 1#24 (cubeDataEvents ds ++ rest)) := by
    rw [step_wrCubeData hb hinbox, hi]
    rfl
  have hothers := runFor_dataWrites s.loadingCube (fun d => .txn (encode (.wrCubeData d)))
    (fun l i d rest => step_wrCubeData (s := s.loadingCube l i _) hb rfl) ds
    (s.cube.store 0 (d.extractLsb' 0 24)) 1 k (by omega) rest
  rw [show ds.length + 1 + k = ds.length + k + 1 by omega, Nat.add_comm ds.length 1]
  exact (runFor_succ_next hfirst).trans hothers

/-- Settles O32: the index is set to 0, 2^24 data writes bring it round to 0 again, and the commit sets CUBE_READY. -/
theorem fullCubeLoad : Obligations.FullCubeLoad := by
  intro s values hb hlen hinbox
  refine ⟨{ s.loadingCube (s.cube.loadWords 0 values) 0#24 [] with cubeReady := true }, ?_, rfl,
    Lut.entry_loadWords_zero s.cube values⟩
  calc runFor (values.length + 2) s
      = runFor (values.length + 1) _ := runFor_succ_next (step_wrCubeIndex hb hinbox)
    _ = runFor 1 (s.loadingCube (s.cube.loadWords 0 values) (BitVec.ofNat 24 values.length)
          [.txn (encode .cmdCubeCommit)]) :=
        runFor_cubeData (by exact hb) rfl (by omega) hlen.le rfl 1
    _ = .next _ := runFor_succ_next (step_cmdCubeCommit (by exact hb) rfl)
    _ = .next { s.loadingCube (s.cube.loadWords 0 values) 0#24 [] with cubeReady := true } := by rw [hlen]; rfl

end Sys2Proof.Machine
end

section
/-! SUPPORT. The streaming pixel iterator (43_pixel_iterator.md): the addresses of a legal job's pixels, the cursor's
walk over the frame, and when the engine has a step. -/

namespace Sys2Proof.Machine

open Sys2Proof.Safety

/-! ### When the engine has a step -/

theorem engineTurn_of_busy {s : State} (h : s.busy = true) : engineTurn s = engineStep s := if_pos h

theorem engineTurn_of_idle {s : State} (h : s.busy = false) : engineTurn s = .next s := if_neg (by simp [h])

/-- The engine's turn of an idle machine changes nothing, and leaves nothing to record of the irq line (R253). -/
theorem settle_engineTurn_of_idle {s : State} (h : s.busy = false) : settle s (engineTurn s) = .next s := by
  rw [engineTurn_of_idle h, settle_next, settleIrq_of_not id]

/-- Settles O7: the event is the engine's turn, which goes by BUSY. -/
theorem engineStepsExactlyWhileBusy : Obligations.EngineStepsExactlyWhileBusy := by
  refine ⟨fun s hi hb => ?_, fun s hi hb => ?_, fun s rest hi hb => ?_, fun s rest hi hb => ?_⟩
  · rw [step_noEvent hi, engineTurn_of_busy hb]
  · rw [step_noEvent hi, settle_engineTurn_of_idle hb]
  · rw [step_event hi, runEvent, engineTurn_of_busy (s := { s with inbox := rest }) hb]
  · rw [step_event hi, runEvent, settle_engineTurn_of_idle (s := { s with inbox := rest }) hb]

/-! ### Pixel addresses (R167 to R170, R175) -/

/-- Where a row fits in its stride, each byte of a pixel lies before every pixel that comes later in raster order. -/
theorem pixelByte_before {w step stride x y x' y' off : Nat} (hrow : w * step ≤ stride) (hx : x < w)
    (hoff : off < step) (h : y < y' ∨ y = y' ∧ x < x') :
    y * stride + x * step + off < y' * stride + x' * step := by
  obtain hy | ⟨rfl, hx'⟩ := h
  · have hcol : (x + 1) * step ≤ w * step := Nat.mul_le_mul_right step hx
    have hline : (y + 1) * stride ≤ y' * stride := Nat.mul_le_mul_right stride hy
    rw [Nat.succ_mul] at hcol hline
    omega
  · have hcol : (x + 1) * step ≤ x' * step := Nat.mul_le_mul_right step hx'
    rw [Nat.succ_mul] at hcol
    omega

/-- A pixel of the frame comes before the end of the last row in raster order. -/
theorem before_lastRowEnd {w h x y : Nat} (hx : x < w) (hy : y < h) : y < h - 1 ∨ y = h - 1 ∧ x < w := by
  omega

/-- What the geometry checks leave of a legal job: each row fits in its stride, each extent lies within the address
space, and the extents are the same or share no byte (R167, R169, R170). -/
theorem geometry_of_passed {s : State} (h : geometryError s = none) :
    rowBytes s ≤ s.srcStride.toNat ∧ rowBytes s ≤ s.dstStride.toNat ∧ srcEnd s ≤ 2 ^ 32 ∧ dstEnd s ≤ 2 ^ 32 ∧
      (isInplace s = false → overlaps s = false) := by
  unfold geometryError at h
  split_ifs at h with hsrc hdst _ _ _ _ hsrcEnd hdstEnd hoverlap
  refine ⟨not_lt.mp hsrc, not_lt.mp hdst, not_lt.mp hsrcEnd, not_lt.mp hdstEnd, fun hin => ?_⟩
  simpa [hin] using hoverlap

/-- Settles O38: an extent ends, and the next row begins, after the pixel in raster order. -/
theorem pixelAddressesStayInTheExtents : Obligations.PixelAddressesStayInTheExtents := by
  intro s x y off ⟨_, hgeom, _⟩ hx hy hoff
  obtain ⟨hsrc, hdst, hsrcEnd, hdstEnd, -⟩ := geometry_of_passed hgeom
  have hend := before_lastRowEnd hx hy
  have hsrcIn := pixelByte_before hsrc hx hoff hend
  have hdstIn := pixelByte_before hdst hx hoff hend
  have hnext : y < y + 1 ∨ y = y + 1 ∧ x < 0 := .inl (Nat.lt_succ_self y)
  have hsrcNext := pixelByte_before hsrc hx hoff hnext
  have hdstNext := pixelByte_before hdst hx hoff hnext
  simp only [srcPx, dstPx, srcEnd, dstEnd, rowBytes] at *
  omega

/-! ### The cursor (R176, R177) -/

/-- The cursor's advance changes the cursor, BUSY and DONE only. -/
theorem advanceCursor_frame (s : State) :
    advanceCursor s = { s with
      curX := (advanceCursor s).curX, curY := (advanceCursor s).curY, busy := (advanceCursor s).busy,
      done := (advanceCursor s).done } := by
  obtain ⟨-, e⟩ | ⟨-, -, e⟩ | ⟨-, -, e⟩ := advanceCursor_cases s
  all_goals rw [e]

/-- Where the cursor goes: to the next column, else to the next row, else nowhere, with the job complete. -/
theorem advanceCursor_moves (s : State) :
    (s.curX.toNat + 1 < s.width.toNat →
      (advanceCursor s).curX.toNat = s.curX.toNat + 1 ∧ (advanceCursor s).curY = s.curY ∧
        (advanceCursor s).busy = s.busy ∧ (advanceCursor s).done = s.done) ∧
    (s.curX.toNat + 1 = s.width.toNat → s.curY.toNat + 1 < s.height.toNat →
      (advanceCursor s).curX = 0#16 ∧ (advanceCursor s).curY.toNat = s.curY.toNat + 1 ∧
        (advanceCursor s).busy = s.busy ∧ (advanceCursor s).done = s.done) ∧
    (s.curX.toNat + 1 = s.width.toNat → s.curY.toNat + 1 = s.height.toNat →
      (advanceCursor s).busy = false ∧ (advanceCursor s).done = true) := by
  obtain ⟨hx, e⟩ | ⟨hx, hy, e⟩ | ⟨hx, hy, e⟩ := advanceCursor_cases s
  all_goals rw [e]
  · exact ⟨fun _ => ⟨toNat_succ_of_lt hx, rfl, rfl, rfl⟩, by omega, by omega⟩
  · exact ⟨by omega, fun _ _ => ⟨rfl, toNat_succ_of_lt hy, rfl, rfl⟩, by omega⟩
  · exact ⟨by omega, by omega, fun _ _ => ⟨rfl, rfl⟩⟩

/-- Settles O39: the pixel step leaves the cursor, BUSY and DONE to the advance. -/
theorem engineStepAdvancesTheCursor : Obligations.EngineStepAdvancesTheCursor := by
  intro s t _ _ h
  obtain ⟨u, hu, rfl⟩ := engineStep_next h
  obtain ⟨-, -, -, -, -, -, -, hframe⟩ := pixelStep_next hu
  have hmoves := advanceCursor_moves u
  rw [hframe] at hmoves ⊢
  exact hmoves

end Sys2Proof.Machine
end

section
/-! SUPPORT. What each quiet event does to a running job: the host's transactions and reads leave it alone
(40_register_access.md R100; 60_exceptions.md R245), and a pixel step makes one destination pixel (44_pixel_mux.md R191
to R198). -/

namespace Sys2Proof.Machine

open Sys2Proof.Safety

/-! ### Host transactions during a job -/

/-- While BUSY = 1 a transaction changes ERR, INT_ENABLE, DONE and the reply only (R100, R245). -/
theorem TxnEffect.frame_of_busy {s t : State} (h : TxnEffect s t) (hb : s.busy = true) :
    t = { s with err := t.err, done := t.done, doneIe := t.doneIe, errIe := t.errIe, reply := t.reply } := by
  cases h
  case completionSeen => rw [seeCompletion_of_busy s hb]
  case replied | errorRecorded | errorCleared | interruptsSet => rfl
  -- The others are effects of an idle machine.
  case parametersSet | clutStored | cubeStored | emptyJobDone | jobAccepted => simp_all

theorem exec_decodeRead_of_busy {s : State} (hb : s.busy = true) (off : Offset) :
    ∃ t, exec (decodeRead off) s = .next t := by
  obtain ⟨r, rfl⟩ | h := offset_cases off
  · cases r
    case clutData | cubeData => exact ⟨_, guardRead_busy hb _ _⟩
    all_goals exact ⟨_, rfl⟩
  · rw [decodeRead_unmapped h]
    exact ⟨_, rfl⟩

theorem exec_decodeCommand_of_busy {s : State} (hb : s.busy = true) (d : Word) :
    ∃ t, exec (decodeCommand d) s = .next t := by
  obtain (rfl | rfl | rfl | rfl | rfl) | h := command_cases d
  case inr =>
    rw [decodeCommand_reserved h]
    exact ⟨_, rfl⟩
  · exact ⟨_, rfl⟩
  · exact ⟨_, guardWrite_busy hb _ _⟩
  · exact ⟨_, rfl⟩
  · exact ⟨_, guardWrite_busy hb _ _⟩
  · exact ⟨_, guardWrite_busy hb _ _⟩

theorem exec_decodeWrite_of_busy {s : State} (hb : s.busy = true) (off : Offset) (d : Word) :
    ∃ t, exec (decodeWrite off d) s = .next t := by
  obtain ⟨r, rfl⟩ | h := offset_cases off
  · cases r
    case cmd => exact exec_decodeCommand_of_busy hb d
    case id | status | err | layout => exact ⟨_, refuseBadReg_eq s _⟩
    case intStatus => exact ⟨_, execWrIntStatus_eq d s⟩
    case intEnable => exact ⟨_, rfl⟩
    -- The others stand behind the busy guard.
    all_goals exact ⟨_, guardWrite_busy hb _ _⟩
  · rw [decodeWrite_unmapped h]
    exact ⟨_, refuseBadReg_eq s _⟩

/-- While BUSY = 1 every transaction of a bus has a next state: what could fault is behind the busy guard (R100). -/
theorem exec_decode_of_busy {s : State} (hb : s.busy = true) {w : Htw} (hw : htwRsv w = 0#3) :
    ∃ t, exec (decode w) s = .next t := by
  obtain ⟨we, rsv, off, d, rfl⟩ := exists_packHtw w
  obtain rfl : rsv = 0#3 := by simpa using hw
  rw [decode_packHtw_rsv0]
  cases we
  · exact exec_decodeRead_of_busy hb off
  · exact exec_decodeWrite_of_busy hb off d

/-- A look at irq orders nothing while BUSY = 1 (R74). -/
theorem hostSeesIrq_of_busy {s : State} (hb : s.busy = true) : hostSeesIrq s = s := by
  rw [hostSeesIrq, seeCompletion_of_busy s hb, ite_self]

/-- A quiet event that is not the engine's leaves a running job and memory alone (R245). -/
theorem runEvent_of_quiet {e : Event} {s : State} (hq : QuietEvent e) (he : e ≠ .engine) (hb : s.busy = true)
    (hd : s.done = false) :
    ∃ t, runEvent e s = .next t ∧ t = { s with
      err := t.err, doneIe := t.doneIe, errIe := t.errIe, reply := t.reply, races := t.races } := by
  cases e with
  | txn w =>
    obtain ⟨t, ht⟩ := exec_decode_of_busy hb hq
    have heffect := exec_effect (decode w) s t ht
    have hdone : t.done = s.done := by
      rw [hd, Bool.eq_false_iff]
      exact fun h => by simp [(heffect.of_busy hb).2 h] at hd
    refine ⟨t, ht, (heffect.frame_of_busy hb).trans ?_⟩
    rw [hdone, (heffect.frame_of_busy hb)]
  | hostRead addr => exact ⟨_, rfl, by rw [hostReadByte_frame]⟩
  | hostSeesIrq => exact ⟨s, congrArg _ (hostSeesIrq_of_busy hb), rfl⟩
  | engine => exact absurd rfl he
  | reset | hostWrite | platform => exact hq.elim

/-! ### The layouts (R37) -/

/-- The channels lie within the pixel, each at its own offset. -/
theorem layoutOf_channels (f : PixelFormat) :
    (layoutOf f).rOff < stepOf f ∧ (layoutOf f).gOff < stepOf f ∧ (layoutOf f).bOff < stepOf f ∧
      (layoutOf f).rOff ≠ (layoutOf f).gOff ∧ (layoutOf f).rOff ≠ (layoutOf f).bOff ∧
      (layoutOf f).gOff ≠ (layoutOf f).bOff := by
  cases f <;> decide

/-- The step-4 formats are those with a fourth byte. -/
theorem layoutOf_has4 (f : PixelFormat) : (layoutOf f).has4 = true ↔ (layoutOf f).step = 4 := by
  cases f <;> decide

/-- The fourth byte lies within the pixel, at an offset of its own. -/
theorem layoutOf_fourth {f : PixelFormat} (h : (layoutOf f).step = 4) :
    (layoutOf f).aOff < stepOf f ∧ (layoutOf f).aOff ≠ (layoutOf f).rOff ∧ (layoutOf f).aOff ≠ (layoutOf f).gOff ∧
      (layoutOf f).aOff ≠ (layoutOf f).bOff := by
  revert h
  cases f <;> decide

/-- The fourth byte of a step-4 format is copied where the job is not in place (R198). -/
theorem copiesFourth_iff {s : State} :
    copiesFourth s = true ↔ (layoutOf s.cfg.fmt).step = 4 ∧ s.inplace = false := by
  simp [copiesFourth, layoutOf_has4]

/-- A pixel step accesses bytes of its pixel only. -/
theorem AccessedOffset.lt_step {s : State} {off : Nat} (h : AccessedOffset s off) : off < stepOf s.cfg.fmt := by
  obtain ⟨hr, hg, hb, -⟩ := layoutOf_channels s.cfg.fmt
  obtain rfl | rfl | rfl | ⟨hc, rfl⟩ := h
  · exact hr
  · exact hg
  · exact hb
  · exact (layoutOf_fourth (copiesFourth_iff.mp hc).1).1

/-- In an in-place job the fourth byte of a pixel is not accessed (R198). -/
theorem fourth_not_accessed {s : State} (h4 : (layoutOf s.cfg.fmt).step = 4) (hc : copiesFourth s = false) :
    ¬AccessedOffset s (layoutOf s.cfg.fmt).aOff := by
  obtain ⟨-, hr, hg, hb⟩ := layoutOf_fourth h4
  simp [AccessedOffset, hr, hg, hb, hc]

/-! ### A pixel step that nothing stops -/

/-- The packer's three writes are made where they are admitted (R197). -/
theorem packPixel_of_admitted {s : State} {d : Nat} (h : WritesAdmitted s d) (q : Rgb) :
    ∃ t, packPixel s d q = some t := by
  have hw : ∀ {u : State} {off : Nat} {v : Byte}, u.holes = s.holes → AccessedOffset s off →
      engineWrite u (d + off) v =
        some { u with mem := u.mem.write (d + off) v, stale := (d + off, u.mem.read (d + off)) :: u.stale } := by
    intro u off v hu hoff
    refine engineWrite_some.mpr ⟨?_, rfl⟩
    simpa only [admitsWrite, hu] using h off hoff
  simp only [packPixel]
  rw [hw rfl (.inl rfl), Option.bind_some, hw (by exact rfl) (.inr (.inl rfl)), Option.bind_some,
    hw (by exact rfl) (.inr (.inr (.inl rfl)))]
  exact ⟨_, rfl⟩

/-- The write of a fourth byte that was read is made where it is admitted (R198). -/
theorem writeFourth_of_admitted {s u : State} {p d : Nat} {q : Rgb} {a : Option Byte} (h : WritesAdmitted s d)
    (ha : readFourth s p = some a) (hu : packPixel s d q = some u) : ∃ t, writeFourth u d a = some t := by
  obtain ⟨-, -, -, eu⟩ := packPixel_some hu
  obtain ⟨hc, rfl⟩ | ⟨-, rfl⟩ := readFourth_some ha
  · have hw := h _ (.inr (.inr (.inr ⟨hc, rfl⟩)))
    refine ⟨_, engineWrite_some.mpr ⟨?_, rfl⟩⟩
    rw [eu]
    exact hw
  · exact ⟨u, rfl⟩

/-- A pixel step whose accesses are all admitted and whose LUT entries are written has a next state (R191). -/
theorem pixelStep_of_admitted {s : State} (hr : ReadsAdmitted s (srcPx s s.curX.toNat s.curY.toNat))
    (hw : WritesAdmitted s (dstPx s s.curX.toNat s.curY.toNat))
    (hremap : (remap s (sourceRgb s s.curX.toNat s.curY.toNat)).isSome = true) : ∃ t, pixelStep s = .next t := by
  obtain ⟨q, hq⟩ := Option.isSome_iff_exists.mp hremap
  obtain ⟨p, hp⟩ := selectPixel_of_admitted hr
  obtain ⟨a, ha⟩ := readFourth_of_admitted hr
  obtain ⟨u, hu⟩ := packPixel_of_admitted hw q
  obtain ⟨t, ht⟩ := writeFourth_of_admitted hw ha hu
  obtain rfl : p = sourceRgb s s.curX.toNat s.curY.toNat := selectPixel_some hp
  exact ⟨t, by simp only [pixelStep, hp, ha, hq, hu, Option.bind_some, ht]⟩

/-! ### The bytes that a pixel step makes -/

/-- In memory `m` the destination pixel at column `x` and row `y` holds the remapped channels of its source pixel as it
is in `s` and, for a step-4 format, its fourth byte (R182, R197, R198). -/
def PixelDone (s : State) (m : Memory) (x y : Nat) : Prop :=
  ∀ q, remap s (sourceRgb s x y) = some q →
    m.read (dstPx s x y + (layoutOf s.cfg.fmt).rOff) = q.r ∧
    m.read (dstPx s x y + (layoutOf s.cfg.fmt).gOff) = q.g ∧
    m.read (dstPx s x y + (layoutOf s.cfg.fmt).bOff) = q.b ∧
    ((layoutOf s.cfg.fmt).step = 4 →
      m.read (dstPx s x y + (layoutOf s.cfg.fmt).aOff) = s.mem.read (srcPx s x y + (layoutOf s.cfg.fmt).aOff))

/-- A pixel that is done stays so while its own bytes stay. -/
theorem PixelDone.of_bytes {s : State} {m m' : Memory} {x y : Nat} (h : PixelDone s m x y)
    (hsame : ∀ off, off < stepOf s.cfg.fmt → m'.read (dstPx s x y + off) = m.read (dstPx s x y + off)) :
    PixelDone s m' x y := by
  intro q hq
  obtain ⟨hr, hg, hb, ha⟩ := h q hq
  obtain ⟨hrOff, hgOff, hbOff, -⟩ := layoutOf_channels s.cfg.fmt
  exact ⟨(hsame _ hrOff).trans hr, (hsame _ hgOff).trans hg, (hsame _ hbOff).trans hb,
    fun hstep => (hsame _ (layoutOf_fourth hstep).1).trans (ha hstep)⟩

/-- The packer leaves the lanes at their offsets, every other byte as it was, and memory in canonical form (R197). -/
theorem packPixel_mem {s t : State} {d : Nat} {q : Rgb} (hwf : s.mem.wf = true) (h : packPixel s d q = some t) :
    t.mem.wf = true ∧ t.mem.read (d + (layoutOf s.cfg.fmt).rOff) = q.r ∧
      t.mem.read (d + (layoutOf s.cfg.fmt).gOff) = q.g ∧ t.mem.read (d + (layoutOf s.cfg.fmt).bOff) = q.b ∧
      ∀ a, a ≠ d + (layoutOf s.cfg.fmt).rOff → a ≠ d + (layoutOf s.cfg.fmt).gOff →
        a ≠ d + (layoutOf s.cfg.fmt).bOff → t.mem.read a = s.mem.read a := by
  obtain ⟨hr, hg, hb, e⟩ := packPixel_some h
  obtain ⟨-, -, -, hrg, hrb, hgb⟩ := layoutOf_channels s.cfg.fmt
  have hwfR := Memory.write_wf hwf (admitsWrite_lt hr) q.r
  have hwfG := Memory.write_wf hwfR (admitsWrite_lt hg) q.g
  rw [e]
  refine ⟨Memory.write_wf hwfG (admitsWrite_lt hb) _, ?_, ?_, Memory.read_write_same hwfG _ _,
    fun a har hag hab => ?_⟩
  · rw [Memory.read_write_other _ _ (by omega), Memory.read_write_other _ _ (by omega), Memory.read_write_same hwf]
  · rw [Memory.read_write_other _ _ (by omega), Memory.read_write_same hwfR]
  · rw [Memory.read_write_other _ _ hab.symm, Memory.read_write_other _ _ hag.symm,
      Memory.read_write_other _ _ har.symm]

/-- The write of a fourth byte leaves it in memory, where one was read, and every other byte as it was (R198). -/
theorem writeFourth_mem {s t : State} {d : Nat} {a : Option Byte} (hwf : s.mem.wf = true)
    (h : writeFourth s d a = some t) :
    t.mem.wf = true ∧ (∀ v, a = some v → t.mem.read (d + (layoutOf s.cfg.fmt).aOff) = v) ∧
      ∀ b, (a ≠ none → b ≠ d + (layoutOf s.cfg.fmt).aOff) → t.mem.read b = s.mem.read b := by
  obtain ⟨v, rfl, hadm, e⟩ | ⟨rfl, rfl⟩ := writeFourth_some h
  · rw [e]
    refine ⟨Memory.write_wf hwf (admitsWrite_lt hadm) v, fun v' hv => ?_, fun b hb => ?_⟩
    · cases hv
      exact Memory.read_write_same hwf _ v
    · exact Memory.read_write_other _ v (hb nofun).symm
  · exact ⟨hwf, nofun, fun _ _ => rfl⟩

/-- What `pixel_step()` leaves in memory: every byte that it does not access as it was, the fourth byte where it is
copied, and the lanes; and the canonical form (R191, R197, R198). -/
theorem pixelStep_mem {s t : State} (hwf : s.mem.wf = true) (h : pixelStep s = .next t) :
    let p := srcPx s s.curX.toNat s.curY.toNat
    let d := dstPx s s.curX.toNat s.curY.toNat
    t.mem.wf = true ∧ (∀ a, (∀ off, AccessedOffset s off → a ≠ d + off) → t.mem.read a = s.mem.read a) ∧
      (copiesFourth s = true →
        t.mem.read (d + (layoutOf s.cfg.fmt).aOff) = s.mem.read (p + (layoutOf s.cfg.fmt).aOff)) ∧
      ∃ q, remap s (sourceRgb s s.curX.toNat s.curY.toNat) = some q ∧
        t.mem.read (d + (layoutOf s.cfg.fmt).rOff) = q.r ∧ t.mem.read (d + (layoutOf s.cfg.fmt).gOff) = q.g ∧
        t.mem.read (d + (layoutOf s.cfg.fmt).bOff) = q.b := by
  intro p d
  obtain ⟨q, u, a, hq, hfourth, hpack, hwrite, -⟩ := pixelStep_next h
  obtain ⟨hwfU, hr, hg, hb, hother⟩ := packPixel_mem hwf hpack
  obtain ⟨hwfT, hcopied, hkept⟩ := writeFourth_mem hwfU hwrite
  have hfmt : u.cfg.fmt = s.cfg.fmt := by
    obtain ⟨-, -, -, e⟩ := packPixel_some hpack
    rw [e]
  rw [hfmt] at hcopied hkept
  have ha : a ≠ none → copiesFourth s = true := by
    obtain ⟨hc, -⟩ | ⟨-, hnone⟩ := readFourth_some hfourth
    · exact fun _ => hc
    · exact fun hne => absurd hnone hne
  have hapart := fun hne => layoutOf_fourth (copiesFourth_iff.mp (ha hne)).1
  refine ⟨hwfT, fun b hacc => ?_, fun hc => ?_, q, hq, ?_, ?_, ?_⟩
  · rw [hkept b fun hne => hacc _ (.inr (.inr (.inr ⟨ha hne, rfl⟩)))]
    exact hother b (hacc _ (.inl rfl)) (hacc _ (.inr (.inl rfl))) (hacc _ (.inr (.inr (.inl rfl))))
  · obtain ⟨-, hsome⟩ | ⟨hc', -⟩ := readFourth_some hfourth
    · exact hcopied _ hsome
    · simp [hc] at hc'
  · rw [hkept _ fun hne => by have := hapart hne; omega, hr]
  · rw [hkept _ fun hne => by have := hapart hne; omega, hg]
  · rw [hkept _ fun hne => by have := hapart hne; omega, hb]

/-- A pixel step makes the destination pixel at the cursor (R182): where its fourth byte is not copied, the job is in
place and the byte is the source's own (R198). -/
theorem pixelStep_done {s t : State} (hwf : s.mem.wf = true)
    (hin : s.inplace = true → srcPx s s.curX.toNat s.curY.toNat = dstPx s s.curX.toNat s.curY.toNat)
    (h : pixelStep s = .next t) : PixelDone s t.mem s.curX.toNat s.curY.toNat := by
  intro q hq
  obtain ⟨-, hother, hcopied, q', hq', hr, hg, hb⟩ := pixelStep_mem hwf h
  obtain rfl : q' = q := Option.some.inj (hq'.symm.trans hq)
  refine ⟨hr, hg, hb, fun h4 => ?_⟩
  cases hc : copiesFourth s with
  | true => exact hcopied hc
  | false =>
    have hinplace : s.inplace = true := by
      by_contra hcopy
      simp [copiesFourth_iff.mpr ⟨h4, Bool.eq_false_iff.mpr hcopy⟩] at hc
    rw [hin hinplace]
    exact hother _ fun off hoff e => fourth_not_accessed h4 hc (Nat.add_left_cancel e ▸ hoff)

end Sys2Proof.Machine
end

section
/-! SUPPORT. A job under way (43_pixel_iterator.md R178 to R182): its pixels by number, which share no byte, the
invariant that ties the machine to the count of the engine's steps, and the engine's step that keeps it. -/

namespace Sys2Proof.Machine

open Sys2Proof.Safety

/-! ### Pixels by their number in raster order (R178) -/

/-- Pixel number `j` stands at column `j % w` and row `j / w`, inside the frame. -/
theorem pixel_in_frame {w h j : Nat} (hj : j < w * h) : j % w < w ∧ j / w < h :=
  ⟨Nat.mod_lt j (Nat.pos_of_mul_pos_right (Nat.zero_lt_of_lt hj)), Nat.div_lt_of_lt_mul hj⟩

/-- A pixel of the frame has its number. -/
theorem pixel_number {w h x y : Nat} (hx : x < w) (hy : y < h) :
    ∃ j, j < w * h ∧ j % w = x ∧ j / w = y := by
  obtain ⟨hdiv, hmod⟩ := (Nat.div_mod_unique (Nat.zero_lt_of_lt hx)).mpr ⟨rfl, hx⟩
  have hend : w * (y + 1) ≤ w * h := Nat.mul_le_mul_left w hy
  rw [Nat.mul_succ] at hend
  exact ⟨x + w * y, by omega, hmod, hdiv⟩

/-- Numbers rise in raster order. -/
theorem raster_of_lt {w i j : Nat} (h : i < j) : i / w < j / w ∨ i / w = j / w ∧ i % w < j % w := by
  have hrow : i / w ≤ j / w := Nat.div_le_div_right h.le
  have hi := Nat.div_add_mod i w
  have hj := Nat.div_add_mod j w
  obtain hlt | heq := hrow.lt_or_eq
  · exact .inl hlt
  · rw [heq] at hi
    exact .inr ⟨heq, by omega⟩

/-- The pixel after a pixel is in the next column, and after the last of a row in the next row's first. -/
theorem pixel_succ {w j : Nat} (hw : 0 < w) :
    (j % w + 1 < w → (j + 1) % w = j % w + 1 ∧ (j + 1) / w = j / w) ∧
      (j % w + 1 = w → (j + 1) % w = 0 ∧ (j + 1) / w = j / w + 1) := by
  have hj := Nat.mod_add_div j w
  refine ⟨fun hlt => ?_, fun heq => ?_⟩
  · exact ((Nat.div_mod_unique hw).mpr ⟨by omega, hlt⟩).symm
  · exact ((Nat.div_mod_unique hw).mpr ⟨by rw [Nat.mul_succ]; omega, hw⟩).symm

/-! ### No pixel's byte is another's (R167, R170, R201) -/

section
variable {s : State} (hlegal : JobLegal s) {i j off off' : Nat}
include hlegal

/-- No byte of one destination pixel is a byte of another. -/
theorem dstPx_ne (hi : i < s.width.toNat * s.height.toNat) (hj : j < s.width.toNat * s.height.toNat) (hij : i ≠ j)
    (hoff : off < stepOf s.cfg.fmt) (hoff' : off' < stepOf s.cfg.fmt) :
    dstPx s (i % s.width.toNat) (i / s.width.toNat) + off ≠
      dstPx s (j % s.width.toNat) (j / s.width.toNat) + off' := by
  obtain ⟨-, hgeom, -⟩ := hlegal
  obtain ⟨-, hrow, -⟩ := geometry_of_passed hgeom
  simp only [dstPx]
  obtain hlt | hlt := hij.lt_or_gt
  · have := pixelByte_before hrow (pixel_in_frame hi).1 hoff (raster_of_lt hlt)
    omega
  · have := pixelByte_before hrow (pixel_in_frame hj).1 hoff' (raster_of_lt hlt)
    omega

/-- In place, the source and the destination pixel are the same bytes (R172, R201). -/
theorem srcPx_of_inplace (hin : s.inplace = true) (x y : Nat) : srcPx s x y = dstPx s x y := by
  obtain ⟨-, -, -, -, hlatch, -⟩ := hlegal
  obtain ⟨hbase, hstride⟩ := isInplace_iff.mp (hlatch ▸ hin)
  simp only [srcPx, dstPx, hbase, hstride]

/-- Not in place, no byte of the source extent lies in the destination extent (R170, R200). -/
theorem extents_disjoint (hin : s.inplace = false) {a b : Nat} (hsrc : s.srcBase.toNat ≤ a ∧ a < srcEnd s)
    (hdst : s.dstBase.toNat ≤ b ∧ b < dstEnd s) : a ≠ b := by
  obtain ⟨-, hgeom, -, -, hlatch, -⟩ := hlegal
  obtain ⟨-, -, -, -, hoverlap⟩ := geometry_of_passed hgeom
  have hno := overlaps_iff.not.mp (Bool.eq_false_iff.mp (hoverlap (hlatch ▸ hin)))
  omega

/-- No byte of one source pixel is a byte of another destination pixel. -/
theorem srcPx_ne_dstPx (hi : i < s.width.toNat * s.height.toNat) (hj : j < s.width.toNat * s.height.toNat)
    (hij : i ≠ j) (hoff : off < stepOf s.cfg.fmt) (hoff' : off' < stepOf s.cfg.fmt) :
    srcPx s (i % s.width.toNat) (i / s.width.toNat) + off ≠
      dstPx s (j % s.width.toNat) (j / s.width.toNat) + off' := by
  cases hin : s.inplace with
  | true =>
    rw [srcPx_of_inplace hlegal hin]
    exact dstPx_ne hlegal hi hj hij hoff hoff'
  | false =>
    obtain ⟨hix, hiy⟩ := pixel_in_frame hi
    obtain ⟨hjx, hjy⟩ := pixel_in_frame hj
    obtain ⟨hsrc, hsrcEnd, -⟩ := pixelAddressesStayInTheExtents s _ _ off hlegal hix hiy hoff
    obtain ⟨-, -, -, hdst, hdstEnd, -⟩ := pixelAddressesStayInTheExtents s _ _ off' hlegal hjx hjy hoff'
    exact extents_disjoint hlegal hin ⟨hsrc, hsrcEnd⟩ ⟨hdst, hdstEnd⟩

end

/-! ### The cursor by the count of engine steps (R176, R178) -/

/-- The cursor stands at pixel number `j` of a running job, or the job is complete and all pixels are done. -/
def CursorAt (s : State) (j : Nat) : Prop :=
  (j < s.width.toNat * s.height.toNat → s.busy = true ∧ s.done = false ∧
    s.curX.toNat = j % s.width.toNat ∧ s.curY.toNat = j / s.width.toNat) ∧
  (j = s.width.toNat * s.height.toNat → s.busy = false ∧ s.done = true)

/-- The advance goes to the next number. -/
theorem advanceCursor_cursorAt {s : State} {j : Nat} (h : CursorAt s j) (hj : j < s.width.toNat * s.height.toNat) :
    CursorAt (advanceCursor s) (j + 1) := by
  obtain ⟨hbusy, hdone, hx, hy⟩ := h.1 hj
  obtain ⟨hxw, hyh⟩ := pixel_in_frame hj
  obtain ⟨hcol, hrow, hend⟩ := advanceCursor_moves s
  rw [hx] at hcol hrow hend
  rw [hy] at hrow hend
  obtain ⟨hwithin, hwrap⟩ := pixel_succ (j := j) (Nat.zero_lt_of_lt hxw)
  have hall : j + 1 = s.width.toNat * s.height.toNat → (j + 1) / s.width.toNat = s.height.toNat := fun e => by
    rw [e, Nat.mul_div_cancel_left _ (Nat.zero_lt_of_lt hxw)]
  simp only [CursorAt, advanceCursor_width, advanceCursor_height]
  obtain hlt | heq := (Nat.succ_le_of_lt hxw).lt_or_eq
  · obtain ⟨hx', hy', hb', hd'⟩ := hcol hlt
    obtain ⟨hmod, hdiv⟩ := hwithin hlt
    exact ⟨fun _ => ⟨hb'.trans hbusy, hd'.trans hdone, by rw [hx', hmod], by rw [hy', hy, hdiv]⟩,
      fun e => absurd (hall e) (by omega)⟩
  · obtain ⟨hmod, hdiv⟩ := hwrap heq
    obtain hlt | hlast := (Nat.succ_le_of_lt hyh).lt_or_eq
    · obtain ⟨hx', hy', hb', hd'⟩ := hrow heq hlt
      exact ⟨fun _ => ⟨hb'.trans hbusy, hd'.trans hdone, by rw [hx', hmod]; rfl, by rw [hy', hdiv]⟩,
        fun e => absurd (hall e) (by omega)⟩
    · exact ⟨fun hmore => absurd (pixel_in_frame hmore).2 (by omega), fun _ => hend heq hlast⟩

/-! ### The invariant of a run -/

/-- All that can differ between the state in which a job began and a later one of the same job. -/
abbrev JobFrame (s t : State) : Prop :=
  t = { s with
    mem := t.mem, stale := t.stale, busy := t.busy, done := t.done, curX := t.curX, curY := t.curY, err := t.err,
    doneIe := t.doneIe, errIe := t.errIe, reply := t.reply, races := t.races, irqRose := t.irqRose, inbox := t.inbox }

/-- `t` is the job that began in `s` after `j` of the engine's steps: those pixels are done, and every byte that their
steps do not access is as it was. -/
structure JobAt (s : State) (j : Nat) (t : State) : Prop where
  frame : JobFrame s t
  wf : t.mem.wf = true
  cursor : CursorAt t j
  pixels : ∀ i, i < j → PixelDone s t.mem (i % s.width.toNat) (i / s.width.toNat)
  others : ∀ a, (∀ i off, i < j → AccessedOffset s off →
    a ≠ dstPx s (i % s.width.toNat) (i / s.width.toNat) + off) → t.mem.read a = s.mem.read a

/-- The frame of a legal job has a pixel (R171). -/
theorem frame_pos {s : State} (h : JobLegal s) : 0 < s.width.toNat * s.height.toNat := by
  obtain ⟨hframe, -⟩ := h
  obtain ⟨hw, hh⟩ := emptyFrame_eq_false.mp hframe
  exact Nat.mul_pos hw hh

/-- A job has just begun. -/
theorem JobAt.begins {s : State} (h : JobBegins s) (hwf : s.mem.wf = true) : JobAt s 0 s := by
  obtain ⟨hb, hlegal, hx, hy⟩ := h
  have hpos := frame_pos hlegal
  obtain ⟨-, -, -, -, -, -, hd⟩ := hlegal
  refine ⟨rfl, hwf, ⟨fun _ => ⟨hb, hd, ?_, ?_⟩, by omega⟩, by omega, fun _ _ => rfl⟩
  · rw [hx, Nat.zero_mod]; rfl
  · rw [hy, Nat.zero_div]; rfl

/-- The invariant is about the job, its memory and its cursor only. -/
theorem JobAt.of_frame {s t u : State} {j : Nat} (h : JobAt s j t) (e : u = { t with
      stale := u.stale, err := u.err, doneIe := u.doneIe, errIe := u.errIe, reply := u.reply, races := u.races,
      irqRose := u.irqRose, inbox := u.inbox }) : JobAt s j u := by
  rw [e]
  refine ⟨?_, h.wf, h.cursor, h.pixels, h.others⟩
  rw [h.frame]

theorem JobFrame.srcPx {s t : State} (h : JobFrame s t) (x y : Nat) : srcPx t x y = srcPx s x y := by rw [h]; rfl

theorem JobFrame.dstPx {s t : State} (h : JobFrame s t) (x y : Nat) : dstPx t x y = dstPx s x y := by rw [h]; rfl

theorem JobFrame.remap {s t : State} (h : JobFrame s t) (p : Rgb) : remap t p = remap s p := by rw [h]; rfl

theorem JobFrame.accessedOffset {s t : State} (h : JobFrame s t) (off : Nat) :
    AccessedOffset t off ↔ AccessedOffset s off := by rw [h]; rfl

theorem JobFrame.size {s t : State} (h : JobFrame s t) : t.width = s.width ∧ t.height = s.height := by
  rw [h]; exact ⟨rfl, rfl⟩

theorem JobFrame.fmt {s t : State} (h : JobFrame s t) : t.cfg.fmt = s.cfg.fmt := by rw [h]

/-- What of the machine a host's transactions and reads can change during a job is as it was (R245). -/
def HostUntouched (s t : State) : Prop :=
  t.err = s.err ∧ t.doneIe = s.doneIe ∧ t.errIe = s.errIe ∧ t.reply = s.reply ∧ t.races = s.races

theorem HostUntouched.refl (s : State) : HostUntouched s s := ⟨rfl, rfl, rfl, rfl, rfl⟩

theorem HostUntouched.trans {s t u : State} (h : HostUntouched s t) (h' : HostUntouched t u) : HostUntouched s u := by
  obtain ⟨herr, hdoneIe, herrIe, hreply, hraces⟩ := h
  obtain ⟨herr', hdoneIe', herrIe', hreply', hraces'⟩ := h'
  exact ⟨herr'.trans herr, hdoneIe'.trans hdoneIe, herrIe'.trans herrIe, hreply'.trans hreply, hraces'.trans hraces⟩

/-! ### The engine's step of a job -/

section
variable {s : State} (hlegal : JobLegal s) {t : State} {j : Nat} (h : JobAt s j t)
  (hj : j < s.width.toNat * s.height.toNat)
include h hj

/-- While there are pixels to come the job is busy with the cursor at the next one. -/
theorem JobAt.running :
    t.busy = true ∧ t.done = false ∧ t.curX.toNat = j % s.width.toNat ∧ t.curY.toNat = j / s.width.toNat := by
  have hcursor := h.cursor.1
  rw [h.frame.size.1, h.frame.size.2] at hcursor
  exact hcursor hj

include hlegal

/-- The bytes of the next source pixel are as they were when the job began (R201). -/
theorem JobAt.source {off : Nat} (hoff : off < stepOf s.cfg.fmt) :
    t.mem.read (Machine.srcPx s (j % s.width.toNat) (j / s.width.toNat) + off) =
      s.mem.read (Machine.srcPx s (j % s.width.toNat) (j / s.width.toNat) + off) :=
  h.others _ fun _ _ hi hacc => srcPx_ne_dstPx hlegal hj (hi.trans hj) hi.ne' hoff hacc.lt_step

/-- So its triple is the triple that the job found there. -/
theorem JobAt.sourceRgb :
    sourceRgb t t.curX.toNat t.curY.toNat = sourceRgb s (j % s.width.toNat) (j / s.width.toNat) := by
  obtain ⟨-, -, hx, hy⟩ := h.running hj
  obtain ⟨hr, hg, hb, -⟩ := layoutOf_channels s.cfg.fmt
  simp only [Safety.sourceRgb, h.frame.srcPx, h.frame.fmt, hx, hy, h.source hlegal hj hr, h.source hlegal hj hg,
    h.source hlegal hj hb]

/-- Nothing stops the pixel step (R82, R199). -/
theorem JobAt.pixelStep (hadm : ExtentsAdmitted s) (hluts : LutsCoverFrame s) : ∃ u, pixelStep t = .next u := by
  obtain ⟨-, -, hx, hy⟩ := h.running hj
  obtain ⟨hxw, hyh⟩ := pixel_in_frame hj
  have hholes : t.holes = s.holes := by rw [h.frame]
  have hin : ∀ {off}, AccessedOffset t off → off < stepOf s.cfg.fmt := fun hoff =>
    ((h.frame.accessedOffset _).mp hoff).lt_step
  refine pixelStep_of_admitted (fun off hoff => ?_) (fun off hoff => ?_) ?_
  · obtain ⟨hlo, hhi, -⟩ := pixelAddressesStayInTheExtents s _ _ off hlegal hxw hyh (hin hoff)
    rw [h.frame.srcPx, hx, hy]
    simpa only [admitsRead, hholes] using hadm.1 _ hlo hhi
  · obtain ⟨-, -, -, hlo, hhi, -⟩ := pixelAddressesStayInTheExtents s _ _ off hlegal hxw hyh (hin hoff)
    rw [h.frame.dstPx, hx, hy]
    simpa only [admitsWrite, hholes] using hadm.2 _ hlo hhi
  · rw [h.frame.remap, h.sourceRgb hlegal hj]
    exact hluts _ _ hxw hyh

/-- The pixel step makes the next pixel (R182). -/
theorem JobAt.pixelDone {u : State} (hu : Machine.pixelStep t = .next u) :
    PixelDone s u.mem (j % s.width.toNat) (j / s.width.toNat) := by
  obtain ⟨-, -, hx, hy⟩ := h.running hj
  have hinplace : t.inplace = s.inplace := by rw [h.frame]
  have hdone := pixelStep_done h.wf (fun hin => by
    rw [h.frame.srcPx, h.frame.dstPx, srcPx_of_inplace hlegal (hinplace ▸ hin)]) hu
  have hrgb := h.sourceRgb hlegal hj
  rw [hx, hy] at hdone hrgb
  intro q hq
  obtain ⟨hr, hg, hb, ha⟩ := hdone q (by rw [h.frame.remap, hrgb, hq])
  rw [h.frame.dstPx, h.frame.fmt] at hr hg hb ha
  rw [h.frame.srcPx] at ha
  exact ⟨hr, hg, hb, fun hstep => (ha hstep).trans (h.source hlegal hj (layoutOf_fourth hstep).1)⟩

/-- The engine's turn takes the job one pixel on, and touches nothing of the host's. -/
theorem JobAt.engineTurn (hadm : ExtentsAdmitted s) (hluts : LutsCoverFrame s) :
    ∃ v, engineTurn t = .next v ∧ JobAt s (j + 1) v ∧ v.inbox = t.inbox ∧ HostUntouched t v := by
  obtain ⟨hbusy, -, hx, hy⟩ := h.running hj
  obtain ⟨u, hu⟩ := h.pixelStep hlegal hj hadm hluts
  obtain ⟨hwf, hother, -⟩ := pixelStep_mem h.wf hu
  obtain ⟨-, -, -, -, -, -, -, hframe⟩ := pixelStep_next hu
  simp only [h.frame.dstPx, h.frame.accessedOffset, hx, hy] at hother
  have hcursor : CursorAt u j := by
    rw [hframe]
    exact h.cursor
  have hsize : u.width = s.width ∧ u.height = s.height := by
    rw [hframe]
    exact h.frame.size
  refine ⟨advanceCursor u, ?_, ⟨?_, ?_, ?_, fun i hi => ?_, fun a ha => ?_⟩, ?_, ?_⟩
  · simp [engineTurn_of_busy hbusy, engineStep, hu]
  · rw [JobFrame, advanceCursor_frame, hframe, h.frame]
  · rwa [advanceCursor_mem]
  · exact advanceCursor_cursorAt hcursor (by rwa [hsize.1, hsize.2])
  · rw [advanceCursor_mem]
    obtain hlt | rfl := Nat.lt_succ_iff_lt_or_eq.mp hi
    · exact (h.pixels i hlt).of_bytes fun off hoff => hother _ fun off' hacc =>
        dstPx_ne hlegal (hlt.trans hj) hj hlt.ne hoff hacc.lt_step
    · exact h.pixelDone hlegal hj hu
  · rw [advanceCursor_mem, hother a fun off hacc => ha j off (Nat.lt_succ_self j) hacc]
    exact h.others a fun i off hi hacc => ha i off (Nat.lt_succ_of_lt hi) hacc
  · rw [advanceCursor_inbox, hframe]
  · rw [advanceCursor_frame, hframe]
    exact .refl t

end

end Sys2Proof.Machine
end

section
/-! SUPPORT. The run of a whole job over the events that come (43_pixel_iterator.md R178 to R182;
70_reset_and_hazards.md R276), by the invariant `JobAt`. -/

namespace Sys2Proof.Machine

open Sys2Proof.Safety

/-! ### The events that come -/

/-- The next steps take the events `l` and leave `rest` to come: they stand in the inbox, or there is no event and the
engine takes every step (log entry 2). -/
def Comes (s : State) (l rest : List Event) : Prop :=
  s.inbox = l ++ rest ∨ (s.inbox = [] ∧ rest = [] ∧ ∀ e ∈ l, e = .engine)

/-- With no event to take, what is to come is what the inbox holds. -/
theorem Comes.inbox {s : State} {rest : List Event} (h : Comes s [] rest) : s.inbox = rest := by
  obtain h | ⟨h, rfl, -⟩ := h
  · exact h
  · exact h

/-- A step takes the event that comes next, on the state without it. -/
theorem Comes.step {s : State} {e : Event} {l rest : List Event} (h : Comes s (e :: l) rest) :
    ∃ inbox, Machine.step s = settle { s with inbox := inbox } (runEvent e { s with inbox := inbox }) ∧
      ∀ u : State, u.inbox = inbox → Comes u l rest := by
  obtain h | ⟨h, rfl, hall⟩ := h
  · exact ⟨l ++ rest, step_event h, fun u hu => .inl hu⟩
  · obtain ⟨rfl, hrest⟩ := List.forall_mem_cons.mp hall
    exact ⟨s.inbox, step_noEvent h, fun u hu => .inr ⟨hu.trans h, rfl, hrest⟩⟩

theorem engineCount_cons (e : Event) (l : List Event) : engineCount (e :: l) = engineCount [e] + engineCount l :=
  List.countP_append (l₁ := [e])

theorem engineCount_append (l l' : List Event) : engineCount (l ++ l') = engineCount l + engineCount l' :=
  List.countP_append

theorem engineCount_take_le (l : List Event) (k : Nat) : engineCount (l.take k) ≤ engineCount l :=
  (List.take_sublist k l).countP_le

theorem engineCount_of_all {l : List Event} (h : ∀ e ∈ l, e = .engine) : engineCount l = l.length :=
  List.countP_eq_length.mpr fun e he => by rw [h e he]; rfl

/-- The engine's steps are the engine's events. -/
theorem Comes.engineSteps {s : State} {l rest : List Event} (h : Comes s l rest) {k : Nat} (hk : k ≤ l.length) :
    engineSteps s k = engineCount (l.take k) := by
  unfold Safety.engineSteps
  obtain h | ⟨h, -, hall⟩ := h
  · split
    · rename_i hnil
      obtain ⟨rfl, -⟩ := List.append_eq_nil_iff.mp (h.symm.trans hnil)
      obtain rfl : k = 0 := Nat.le_zero.mp hk
      rfl
    · rw [h, List.take_append_of_le_length hk]
  · rw [if_pos h, engineCount_of_all fun e he => hall e (List.mem_of_mem_take he), List.length_take_of_le hk]

/-- The steps that take a job to its end: quiet events, the engine's last step the last of them. -/
theorem jobSteps_events {s : State} {n : Nat} {rest : List Event} (h : JobSteps s n rest)
    (hpos : 0 < s.width.toNat * s.height.toNat) :
    ∃ l, Comes s (l ++ [.engine]) rest ∧ (∀ e ∈ l, QuietEvent e) ∧ n = l.length + 1 ∧
      engineCount l + 1 = s.width.toNat * s.height.toNat ∧
      ((∀ e ∈ s.inbox.take n, e = .engine) → ∀ e ∈ l ++ [.engine], e = .engine) := by
  obtain ⟨hinbox, hrest, rfl⟩ | ⟨l, hinbox, hquiet, hcount, hlast, rfl⟩ := h
  · obtain ⟨m, hm⟩ := Nat.exists_eq_succ_of_ne_zero hpos.ne'
    have hall : ∀ e ∈ List.replicate m Event.engine ++ [.engine], e = .engine := by
      rw [← List.replicate_succ']
      exact fun e he => List.eq_of_mem_replicate he
    refine ⟨List.replicate m .engine, .inr ⟨hinbox, hrest, hall⟩, fun e he => ?_, ?_, ?_, fun _ => hall⟩
    · rw [List.eq_of_mem_replicate he]
      trivial
    · rw [hm, List.length_replicate]
    · rw [hm, engineCount_of_all fun e he => List.eq_of_mem_replicate he, List.length_replicate]
  · obtain ⟨l, rfl⟩ := List.getLast?_eq_some_iff.mp hlast
    refine ⟨l, .inl hinbox, fun e he => hquiet e (List.mem_append_left _ he), List.length_append, ?_, fun hall => ?_⟩
    · rw [← hcount, engineCount_append]
      rfl
    · rwa [hinbox, List.take_left] at hall

/-! ### Steps and runs of a job -/

/-- A run of one step or more that answers `t` took a first step, and ran on to `t`. -/
theorem runFor_succ_cases {k : Nat} {s t : State} (h : runFor (k + 1) s = .next t) :
    ∃ u, Machine.step s = .next u ∧ runFor k u = .next t := by
  simp only [runFor, Host.Core.run] at h
  split at h
  · exact ⟨_, ‹_›, h⟩
  · cases h
  · cases h

/-- A run can be cut at any of its states. -/
theorem runFor_add {k : Nat} {s t : State} (h : runFor k s = .next t) (m : Nat) :
    runFor (k + m) s = runFor m t := by
  induction k generalizing s with
  | zero => rw [Nat.zero_add, Host.Outcome.next.inj h]
  | succ k ih =>
    obtain ⟨u, hstep, hrun⟩ := runFor_succ_cases h
    rw [Nat.add_right_comm, runFor_succ_next hstep, ih hrun]

section
variable {s : State} (hlegal : JobLegal s) (hadm : ExtentsAdmitted s) (hluts : LutsCoverFrame s)
include hlegal hadm hluts

/-- A quiet event takes the job on by a pixel, if it is the engine's, and else leaves it where it is. -/
theorem JobAt.runEvent {t : State} {j : Nat} {e : Event} (h : JobAt s j t)
    (hj : j < s.width.toNat * s.height.toNat) (hq : QuietEvent e) :
    ∃ v, runEvent e t = .next v ∧ JobAt s (j + engineCount [e]) v ∧ v.inbox = t.inbox ∧
      (e = .engine → HostUntouched t v) := by
  by_cases he : e = .engine
  · subst he
    obtain ⟨v, hv, hat, hinbox, hhost⟩ := h.engineTurn hlegal hj hadm hluts
    exact ⟨v, hv, hat, hinbox, fun _ => hhost⟩
  · obtain ⟨hbusy, hdone, -⟩ := h.running hj
    obtain ⟨v, hv, hframe⟩ := runEvent_of_quiet hq he hbusy hdone
    have hcount : engineCount [e] = 0 := by simp [engineCount, he]
    rw [hcount]
    exact ⟨v, hv, h.of_frame (by rw [hframe]), by rw [hframe], fun h => absurd h he⟩

/-- So does the step that takes it. -/
theorem JobAt.step {t : State} {j : Nat} {e : Event} {l rest : List Event} (h : JobAt s j t)
    (hj : j < s.width.toNat * s.height.toNat) (hc : Comes t (e :: l) rest) (hq : QuietEvent e) :
    ∃ u, Machine.step t = .next u ∧ JobAt s (j + engineCount [e]) u ∧ Comes u l rest ∧
      (e = .engine → HostUntouched t u) := by
  obtain ⟨inbox, hstep, hrest⟩ := hc.step
  have htaken : JobAt s j { t with inbox := inbox } := h.of_frame rfl
  obtain ⟨v, hv, hat, hinbox, hhost⟩ := htaken.runEvent hlegal hadm hluts hj hq
  refine ⟨settleIrq { t with inbox := inbox } v, by rw [hstep, hv, settle_next],
    hat.of_frame (by rw [settleIrq_frame]), hrest _ ?_, fun he => ?_⟩
  · rw [settleIrq_inbox, hinbox]
  · simpa [HostUntouched] using hhost he

/-- A run over quiet events that do not complete the job. -/
theorem JobAt.run {t : State} {j : Nat} {l l' rest : List Event} (h : JobAt s j t) (hc : Comes t (l ++ l') rest)
    (hq : ∀ e ∈ l, QuietEvent e) (hj : j + engineCount l < s.width.toNat * s.height.toNat) :
    ∃ u, runFor l.length t = .next u ∧ JobAt s (j + engineCount l) u ∧ Comes u l' rest ∧
      ((∀ e ∈ l, e = .engine) → HostUntouched t u) := by
  induction l generalizing t j with
  | nil => exact ⟨t, rfl, h, hc, fun _ => .refl t⟩
  | cons e l ih =>
    obtain ⟨hqe, hql⟩ := List.forall_mem_cons.mp hq
    rw [engineCount_cons, ← Nat.add_assoc] at hj ⊢
    obtain ⟨u, hstep, hat, hcu, hhost⟩ := h.step hlegal hadm hluts (by omega) hc hqe
    obtain ⟨v, hrun, hatv, hcv, hhostv⟩ := ih hat hcu hql hj
    refine ⟨v, (runFor_succ_next hstep).trans hrun, hatv, hcv, fun hall => ?_⟩
    obtain ⟨he, hl⟩ := List.forall_mem_cons.mp hall
    exact (hhost he).trans (hhostv hl)

/-- A run to the job's end, by the engine's last step. -/
theorem JobAt.runToEnd {t : State} {j : Nat} {l rest : List Event} (h : JobAt s j t)
    (hc : Comes t (l ++ [.engine]) rest) (hq : ∀ e ∈ l, QuietEvent e)
    (hj : j + (engineCount l + 1) = s.width.toNat * s.height.toNat) :
    ∃ u, runFor (l.length + 1) t = .next u ∧ JobAt s (s.width.toNat * s.height.toNat) u ∧ u.inbox = rest ∧
      ((∀ e ∈ l ++ [.engine], e = .engine) → HostUntouched t u) := by
  obtain ⟨u, hrun, hat, hcu, hhost⟩ := h.run hlegal hadm hluts hc hq (by omega)
  obtain ⟨v, hstep, hatv, hcv, hhostv⟩ := hat.step hlegal hadm hluts (by omega) hcu trivial
  refine ⟨v, (runFor_add hrun 1).trans (runFor_succ_next hstep), ?_, hcv.inbox, fun hall => ?_⟩
  · rw [← hj, ← Nat.add_assoc]
    exact hatv
  · exact (hhost fun e he => hall e (List.mem_append_left _ he)).trans (hhostv rfl)

end

/-! ### The whole job -/

/-- A complete job is idle with DONE set (R177). -/
theorem JobAt.complete {s t : State} (h : JobAt s (s.width.toNat * s.height.toNat) t) :
    t.busy = false ∧ t.done = true := by
  have hcursor := h.cursor.2
  rw [h.frame.size.1, h.frame.size.2] at hcursor
  exact hcursor rfl

/-- A run to any state before the last step has as many pixels done as it took of the engine's steps (R178). -/
theorem runFor_before_end {s : State} (hbegins : JobBegins s) (hwf : s.mem.wf = true) (hadm : ExtentsAdmitted s)
    (hluts : LutsCoverFrame s) {l rest : List Event} (hc : Comes s (l ++ [.engine]) rest)
    (hq : ∀ e ∈ l, QuietEvent e) (hcount : engineCount l < s.width.toNat * s.height.toNat) {k : Nat}
    (hk : k ≤ l.length) : ∃ t, runFor k s = .next t ∧ JobAt s (engineCount (l.take k)) t := by
  obtain ⟨-, hlegal, -⟩ := id hbegins
  have hle := engineCount_take_le l k
  rw [← List.take_append_drop k l, List.append_assoc] at hc
  obtain ⟨t, hrun, hat, -⟩ := (JobAt.begins hbegins hwf).run hlegal hadm hluts hc
    (fun e he => hq e (List.mem_of_mem_take he)) (by omega)
  rw [List.length_take_of_le hk] at hrun
  rw [Nat.zero_add] at hat
  exact ⟨t, hrun, hat⟩

/-- Settles O43: each of the `n` states meets `JobAt` at the count of the engine's steps. -/
theorem jobVisitsPixelsInRasterOrder : Obligations.JobVisitsPixelsInRasterOrder := by
  intro s n rest hbegins ⟨hwf, _⟩ hadm hluts hsteps
  obtain ⟨-, hlegal, -⟩ := id hbegins
  obtain ⟨l, hcomes, hquiet, rfl, hcount, -⟩ := jobSteps_events hsteps (frame_pos hlegal)
  have hlength : (l ++ [Event.engine]).length = l.length + 1 := List.length_append
  refine ⟨fun k hk => ?_, ?_, ?_⟩
  · have hle := engineCount_take_le l k
    have hlt : engineCount (l.take k) < s.width.toNat * s.height.toNat := by omega
    rw [hcomes.engineSteps (hlength ▸ hk.le), List.take_append_of_le_length (Nat.le_of_lt_succ hk)]
    obtain ⟨t, hrun, hat⟩ := runFor_before_end hbegins hwf hadm hluts hcomes hquiet (by omega)
      (Nat.le_of_lt_succ hk)
    obtain ⟨hbusy, -, hx, hy⟩ := hat.running hlt
    exact ⟨hlt, t, hrun, hbusy, hx, hy⟩
  · rw [hcomes.engineSteps hlength.ge, ← hlength, List.take_length, engineCount_append]
    exact hcount
  · obtain ⟨t, hrun, hat, hinbox, -⟩ :=
      (JobAt.begins hbegins hwf).runToEnd hlegal hadm hluts hcomes hquiet (by omega)
    exact ⟨t, hrun, hat.complete.1, hat.complete.2, hinbox⟩

/-- The bytes that the job writes are those that its pixels' steps access. -/
theorem jobWrites_of_accessed {s : State} {i off : Nat} (hi : i < s.width.toNat * s.height.toNat)
    (hacc : AccessedOffset s off) : JobWrites s (dstPx s (i % s.width.toNat) (i / s.width.toNat) + off) := by
  obtain ⟨hx, hy⟩ := pixel_in_frame hi
  refine ⟨_, _, hx, hy, ?_⟩
  obtain rfl | rfl | rfl | ⟨hc, rfl⟩ := hacc
  · exact .inl rfl
  · exact .inr (.inl rfl)
  · exact .inr (.inr (.inl rfl))
  · exact .inr (.inr (.inr ⟨hc, rfl⟩))

/-- With all pixels done, memory is the job's result (R182). -/
theorem JobAt.result {s t : State} (h : JobAt s (s.width.toNat * s.height.toNat) t) : JobResult s t := by
  refine ⟨fun x y q hx hy hq => ?_, fun a ha => h.others a fun i off hi hacc e => ha ?_⟩
  · obtain ⟨j, hj, rfl, rfl⟩ := pixel_number hx hy
    exact h.pixels j hj q hq
  · rw [e]
    exact jobWrites_of_accessed hi hacc

/-- Settles O44: the run to the end reaches `JobAt` with all pixels done. -/
theorem wholeJobResult : Obligations.WholeJobResult := by
  intro s n rest hbegins ⟨hwf, _⟩ hadm hluts hsteps
  obtain ⟨-, hlegal, -⟩ := id hbegins
  obtain ⟨l, hcomes, hquiet, rfl, hcount, hall⟩ := jobSteps_events hsteps (frame_pos hlegal)
  obtain ⟨t, hrun, hat, hinbox, hhost⟩ :=
    (JobAt.begins hbegins hwf).runToEnd hlegal hadm hluts hcomes hquiet (by omega)
  obtain ⟨hb, hd⟩ := hat.complete
  refine ⟨t, hrun, hat.result, ?_, fun h => hhost (hall h)⟩
  rw [← hb, ← hd, ← hinbox]
  exact hat.frame

end Sys2Proof.Machine
end

section
/-! SUPPORT. The parallel pixel multiplexer (44_pixel_mux.md): what one engine step does in either LUT mode, the source
extent of a job that is not in place, and the job of the identity CLUT. -/

namespace Sys2Proof.Machine

open Sys2Proof.Safety

/-! ### The lookups (R193, R195, R196) -/

/-- CLUT mode gives each lane the entry of its own byte (R193). -/
theorem remap_of_clut {s : State} {p : Rgb} {r g b : Byte} (hmode : s.cfg.mode = .clut)
    (hr : s.clut.entry p.r.toNat = some r) (hg : s.clut.entry p.g.toNat = some g)
    (hb : s.clut.entry p.b.toNat = some b) : remap s p = some ⟨r, g, b⟩ := by
  simp only [remap, hmode, remapClut, hr, hg, hb]

/-- The packed key in arithmetic (R195). -/
theorem cubeKey_toNat (p : Rgb) : (cubeKey p).toNat = p.r.toNat * 65536 + p.g.toNat * 256 + p.b.toNat := by
  rw [cubeKey, BitVec.toNat_append, BitVec.toNat_append, ← Nat.shiftLeft_add_eq_or_of_lt p.b.isLt,
    ← Nat.shiftLeft_add_eq_or_of_lt p.g.isLt, Nat.shiftLeft_eq, Nat.shiftLeft_eq]
  omega

/-- CUBE mode gives the lanes of the one entry at the key (R196). -/
theorem remap_of_cube {s : State} {p : Rgb} {e : BitVec 24} (hmode : s.cfg.mode = .cube)
    (he : s.cube.entry (p.r.toNat * 65536 + p.g.toNat * 256 + p.b.toNat) = some e) :
    remap s p = some (cubeLanes e) := by
  rw [← cubeKey_toNat] at he
  simp only [remap, hmode, remapCube, he, Option.map_some]

/-! ### The bytes that are accessed -/

/-- The accessed bytes of the pixel at `d`, listed (R191, R198). -/
theorem accessed_byte_iff {s : State} {d a : Nat} :
    (∃ off, AccessedOffset s off ∧ a = d + off) ↔
      a = d + (layoutOf s.cfg.fmt).rOff ∨ a = d + (layoutOf s.cfg.fmt).gOff ∨ a = d + (layoutOf s.cfg.fmt).bOff ∨
        ((layoutOf s.cfg.fmt).step = 4 ∧ s.inplace = false ∧ a = d + (layoutOf s.cfg.fmt).aOff) := by
  simp only [AccessedOffset, or_and_right, exists_or, exists_eq_left, and_assoc, exists_and_left, copiesFourth_iff]

/-- The addresses that the job writes are the accessed bytes of its destination pixels (R175, R198). -/
theorem jobWrites_iff {s : State} {a : Nat} :
    JobWrites s a ↔ ∃ x y off, x < s.width.toNat ∧ y < s.height.toNat ∧ AccessedOffset s off ∧
      a = dstPx s x y + off := by
  simp only [JobWrites, exists_and_left, accessed_byte_iff, copiesFourth_iff, and_assoc]

/-- A legal job's accesses to a pixel of its frame are admitted where its extents are (R82, R169, R175). -/
theorem accesses_admitted {s : State} (hlegal : JobLegal s) (hadm : ExtentsAdmitted s) {x y : Nat}
    (hx : x < s.width.toNat) (hy : y < s.height.toNat) :
    ReadsAdmitted s (srcPx s x y) ∧ WritesAdmitted s (dstPx s x y) := by
  obtain ⟨hreads, hwrites⟩ := hadm
  refine ⟨fun off hacc => ?_, fun off hacc => ?_⟩
  · obtain ⟨hlo, hhi, -⟩ := pixelAddressesStayInTheExtents s x y off hlegal hx hy hacc.lt_step
    exact hreads _ hlo hhi
  · obtain ⟨-, -, -, hlo, hhi, -⟩ := pixelAddressesStayInTheExtents s x y off hlegal hx hy hacc.lt_step
    exact hwrites _ hlo hhi

/-! ### The record of the bytes that stood there (R74) -/

/-- A byte is in a record that gains what stood at `x` where it stood at `x`, or was there before. -/
theorem mem_cons_stood {m : Memory} {l : List Host.Cell} {a x : Nat} {b : Byte} :
    (a, b) ∈ (x, m.read x) :: l ↔ (b = m.read a ∧ a = x) ∨ (a, b) ∈ l := by
  rw [List.mem_cons, Prod.mk.injEq, and_comm (a := b = m.read a)]
  exact or_congr_left (and_congr_right fun e => by rw [e])

/-- The packer records the byte that stood at each channel: none of its writes falls on a later one's byte. -/
theorem packPixel_stale {s t : State} {d : Nat} {q : Rgb} (h : packPixel s d q = some t) :
    t.stale = (d + (layoutOf s.cfg.fmt).bOff, s.mem.read (d + (layoutOf s.cfg.fmt).bOff)) ::
      (d + (layoutOf s.cfg.fmt).gOff, s.mem.read (d + (layoutOf s.cfg.fmt).gOff)) ::
      (d + (layoutOf s.cfg.fmt).rOff, s.mem.read (d + (layoutOf s.cfg.fmt).rOff)) :: s.stale := by
  obtain ⟨-, -, -, hrg, hrb, hgb⟩ := layoutOf_channels s.cfg.fmt
  simp only [packPixel, Option.bind_eq_some_iff, engineWrite_some] at h
  obtain ⟨_, ⟨-, rfl⟩, _, ⟨-, rfl⟩, -, rfl⟩ := h
  simp only
  rw [Memory.read_write_other _ _ (by omega), Memory.read_write_other _ _ (by omega),
    Memory.read_write_other _ _ (by omega)]

/-- The write of a fourth byte records the byte that stood there, where one was read. -/
theorem writeFourth_stale {s t : State} {d : Nat} {a : Option Byte} (h : writeFourth s d a = some t) :
    (a ≠ none ∧ t.stale = (d + (layoutOf s.cfg.fmt).aOff, s.mem.read (d + (layoutOf s.cfg.fmt).aOff)) :: s.stale) ∨
      (a = none ∧ t.stale = s.stale) := by
  cases a with
  | none => cases h; exact .inr ⟨rfl, rfl⟩
  | some v =>
    obtain ⟨-, rfl⟩ := engineWrite_some.mp h
    exact .inl ⟨nofun, rfl⟩

/-- A pixel step adds to the record the byte that stood at each address it writes, and nothing else. -/
theorem pixelStep_stale {s t : State} (hwf : s.mem.wf = true) (h : pixelStep s = .next t) (a : Nat) (b : Byte) :
    (a, b) ∈ t.stale ↔ (a, b) ∈ s.stale ∨
      (b = s.mem.read a ∧ ∃ off, AccessedOffset s off ∧ a = dstPx s s.curX.toNat s.curY.toNat + off) := by
  rw [accessed_byte_iff, ← and_assoc (a := _ = 4), ← copiesFourth_iff]
  obtain ⟨q, u, fourth, -, hfourth, hpack, hwrite, -⟩ := pixelStep_next h
  obtain ⟨-, -, -, -, hother⟩ := packPixel_mem hwf hpack
  have hstale := packPixel_stale hpack
  have hfmt : u.cfg.fmt = s.cfg.fmt := by
    obtain ⟨-, -, -, e⟩ := packPixel_some hpack
    rw [e]
  have hadded := writeFourth_stale hwrite
  rw [hfmt] at hadded
  obtain ⟨hc, rfl⟩ | ⟨hc, rfl⟩ := readFourth_some hfourth
  · obtain ⟨-, e⟩ | ⟨hnone, -⟩ := hadded
    · obtain ⟨-, har, hag, hab⟩ := layoutOf_fourth (copiesFourth_iff.mp hc).1
      rw [e, hstale, hother _ (by omega) (by omega) (by omega)]
      simp only [mem_cons_stood, hc]
      tauto
    · cases hnone
  · obtain ⟨hne, -⟩ | ⟨-, e⟩ := hadded
    · exact absurd rfl hne
    · rw [e, hstale]
      simp only [mem_cons_stood, hc]
      tauto

/-! ### One engine step -/

/-- `t` is `s` after the engine's step at the cursor, the lookup of whose triple gave `q` (R191, R197, R198): the lanes
stand in the destination pixel, the fourth byte is copied where that is due, the record has the bytes that stood there,
and nothing else changes but the cursor, BUSY and DONE. -/
def PixelStepped (s : State) (q : Rgb) (t : State) : Prop :=
  let l := layoutOf s.cfg.fmt
  let p := srcPx s s.curX.toNat s.curY.toNat
  let d := dstPx s s.curX.toNat s.curY.toNat
  t.mem.read (d + l.rOff) = q.r ∧ t.mem.read (d + l.gOff) = q.g ∧ t.mem.read (d + l.bOff) = q.b ∧
    (l.step = 4 → s.inplace = false → t.mem.read (d + l.aOff) = s.mem.read (p + l.aOff)) ∧
    (∀ a, a ≠ d + l.rOff → a ≠ d + l.gOff → a ≠ d + l.bOff →
      ¬(l.step = 4 ∧ s.inplace = false ∧ a = d + l.aOff) → t.mem.read a = s.mem.read a) ∧
    (∀ a b, (a, b) ∈ t.stale ↔ (a, b) ∈ s.stale ∨ (b = s.mem.read a ∧
      (a = d + l.rOff ∨ a = d + l.gOff ∨ a = d + l.bOff ∨ (l.step = 4 ∧ s.inplace = false ∧ a = d + l.aOff)))) ∧
    t = { s with mem := t.mem, stale := t.stale, curX := t.curX, curY := t.curY, busy := t.busy, done := t.done }

/-- In either mode, the engine's turn of a legal job takes its step where the lookup finds its entries. -/
theorem engineTurn_pixelStepped {s : State} (hwf : s.mem.wf = true) (hbusy : s.busy = true) (hadm : ExtentsAdmitted s)
    (hlegal : JobLegal s) {q : Rgb} (hq : remap s (sourceRgb s s.curX.toNat s.curY.toNat) = some q) :
    ∃ t, engineTurn s = .next t ∧ PixelStepped s q t := by
  obtain ⟨-, -, hx, hy, -⟩ := id hlegal
  obtain ⟨hreads, hwrites⟩ := accesses_admitted hlegal hadm hx hy
  obtain ⟨u, hu⟩ := pixelStep_of_admitted hreads hwrites (by rw [hq]; rfl)
  obtain ⟨-, hother, hcopied, q', hq', hr, hg, hb⟩ := pixelStep_mem hwf hu
  obtain rfl : q' = q := Option.some.inj (hq'.symm.trans hq)
  obtain ⟨-, -, -, -, -, -, -, hframe⟩ := pixelStep_next hu
  refine ⟨advanceCursor u, by rw [engineTurn_of_busy hbusy, engineStep, hu], ?_⟩
  simp only [PixelStepped, advanceCursor_mem, advanceCursor_stale]
  refine ⟨hr, hg, hb, fun h4 hin => hcopied (copiesFourth_iff.mpr ⟨h4, hin⟩), fun a har hag hab haa => ?_,
    fun a b => ?_, ?_⟩
  · refine hother a fun off hacc e => ?_
    have hbyte := accessed_byte_iff.mp ⟨off, hacc, e⟩
    tauto
  · rw [pixelStep_stale hwf hu, accessed_byte_iff]
  · rw [advanceCursor_frame, hframe]

/-- Settles O40: the engine's step, with the three lookups in the one table. -/
theorem clutPixelStep : Obligations.ClutPixelStep := by
  intro s r g b hwf hbusy hmode hadm hlegal l p d hr hg hb
  exact engineTurn_pixelStepped hwf hbusy hadm hlegal (remap_of_clut hmode hr hg hb)

/-- Settles O41: the engine's step, with the one lookup at the packed key. -/
theorem cubePixelStep : Obligations.CubePixelStep := by
  intro s e hwf hbusy hmode hadm hlegal l p d he
  exact engineTurn_pixelStepped hwf hbusy hadm hlegal (remap_of_cube hmode he)

/-! ### The source of a job that is not in place (R200) -/

/-- A job that is not in place writes within the destination extent, which shares no byte with the source extent. -/
theorem not_jobWrites_source {s : State} (hlegal : JobLegal s) (hin : s.inplace = false) {a : Nat}
    (hlo : s.srcBase.toNat ≤ a) (hhi : a < srcEnd s) : ¬JobWrites s a := by
  intro hwrites
  obtain ⟨x, y, off, hx, hy, hacc, e⟩ := jobWrites_iff.mp hwrites
  obtain ⟨-, -, -, hdst, hdstEnd, -⟩ := pixelAddressesStayInTheExtents s x y off hlegal hx hy hacc.lt_step
  exact extents_disjoint hlegal hin ⟨hlo, hhi⟩ ⟨hdst, hdstEnd⟩ e

/-- Settles O45: what the job does not write is as it was in the result of the whole job. -/
theorem copyJobLeavesTheSource : Obligations.CopyJobLeavesTheSource := by
  refine ⟨fun s a hlegal hin => not_jobWrites_source hlegal hin,
    fun s n rest hbegins hrams hadm hluts hin hsteps => ?_⟩
  obtain ⟨-, hlegal, -⟩ := id hbegins
  obtain ⟨t, hrun, ⟨-, hkept⟩, -⟩ := wholeJobResult s n rest hbegins hrams hadm hluts hsteps
  exact ⟨t, hrun, fun a hlo hhi => hkept a (not_jobWrites_source hlegal hin hlo hhi)⟩

/-! ### The identity CLUT (R203) -/

/-- The bytes of a pixel are its channels and, for a step-4 format, its fourth byte (R37, R39). -/
theorem layoutOf_covers {f : PixelFormat} {off : Nat} (h : off < stepOf f) :
    off = (layoutOf f).rOff ∨ off = (layoutOf f).gOff ∨ off = (layoutOf f).bOff ∨
      ((layoutOf f).step = 4 ∧ off = (layoutOf f).aOff) := by
  revert off
  cases f <;> decide

/-- A job that remaps each triple to itself copies every byte of every pixel (R182, R203). -/
theorem jobResult_copies {s t : State} (h : JobResult s t) (hid : ∀ p, remap s p = some p) {x y off : Nat}
    (hx : x < s.width.toNat) (hy : y < s.height.toNat) (hoff : off < stepOf s.cfg.fmt) :
    t.mem.read (dstPx s x y + off) = s.mem.read (srcPx s x y + off) := by
  obtain ⟨hr, hg, hb, ha⟩ := h.1 x y _ hx hy (hid _)
  obtain rfl | rfl | rfl | ⟨hstep, rfl⟩ := layoutOf_covers hoff
  · exact hr
  · exact hg
  · exact hb
  · exact ha hstep

/-- In place, such a job leaves every byte as it was: what it copies is the byte itself (R201, R203). -/
theorem jobResult_unchanged_of_inplace {s t : State} (h : JobResult s t) (hid : ∀ p, remap s p = some p)
    (hlegal : JobLegal s) (hin : s.inplace = true) (a : Nat) : t.mem.read a = s.mem.read a := by
  by_cases hwrites : JobWrites s a
  · obtain ⟨x, y, off, hx, hy, hacc, rfl⟩ := jobWrites_iff.mp hwrites
    rw [jobResult_copies h hid hx hy hacc.lt_step, srcPx_of_inplace hlegal hin]
  · exact h.2 a hwrites

/-- Settles O46: the identity CLUT remaps each triple to itself, in the result of the whole job. -/
theorem identityClutJob : Obligations.IdentityClutJob := by
  intro s n rest hbegins hrams hadm hmode hclut hsteps
  obtain ⟨-, hlegal, -⟩ := id hbegins
  have hid : ∀ p, remap s p = some p := fun p => remap_of_clut hmode (hclut p.r) (hclut p.g) (hclut p.b)
  have hluts : LutsCoverFrame s := fun x y _ _ => by rw [hid]; rfl
  obtain ⟨t, hrun, hresult, -⟩ := wholeJobResult s n rest hbegins hrams hadm hluts hsteps
  exact ⟨t, hrun, jobResult_unchanged_of_inplace hresult hid hlegal, fun _ x y off => jobResult_copies hresult hid⟩

end Sys2Proof.Machine
end

section
/-! SUPPORT. The host reference functions (45_host_reference.md): the darken rounding and its entries, the check of the
darken parameters, the grid of luminance samples, and the gamma table as a function of the mean brightness. -/

namespace Sys2Proof.Machine

/-! ### The darken rounding (R212) -/

/-- Settles O55: the two bounds of the quotient `(2n + d - 1) / 2d`, in terms of the product `kd`. -/
theorem darkenRoundsTiesToZero : Obligations.DarkenRoundsTiesToZero := by
  intro n d k hd
  rw [roundTiesToZero, Nat.div_eq_iff (by omega), show k * (2 * d) = 2 * (k * d) by ring, Nat.add_mul, Nat.sub_mul,
    Nat.mul_assoc, Nat.one_mul]
  obtain rfl | hk := k.eq_zero_or_pos
  · omega
  · have hkd : d ≤ k * d := Nat.le_mul_of_pos_left d hk
    omega

/-- A whole amount is its own rounding. -/
theorem roundTiesToZero_mul (k : Nat) {d : Nat} (hd : 0 < d) : roundTiesToZero (k * d) d = k := by
  rw [darkenRoundsTiesToZero _ _ _ hd, Nat.add_mul, Nat.sub_mul, Nat.mul_assoc, Nat.one_mul]
  refine ⟨by omega, fun hk => ?_⟩
  have hkd : 0 < k * d := Nat.mul_pos hk hd
  omega

/-- `rnd_tz(x) = ceil(x - 1/2)` in real arithmetic (R212, R220). -/
theorem roundTiesToZero_eq_ceil (n : Nat) {d : Nat} (hd : 0 < d) :
    (roundTiesToZero n d : ℤ) = ⌈(n : ℝ) / d - 1 / 2⌉ := by
  obtain ⟨hupper, hlower⟩ := (darkenRoundsTiesToZero n d _ hd).mp rfl
  generalize roundTiesToZero n d = k at *
  have hd' : (0 : ℝ) < d := Nat.cast_pos.mpr hd
  have hle : (n : ℝ) / d ≤ k + 1 / 2 := by
    have : (2 * n : ℝ) ≤ (2 * k + 1) * d := by exact_mod_cast hupper
    rw [div_le_iff₀ hd']
    linarith
  have hlt : (k : ℝ) - 1 / 2 < n / d := by
    obtain rfl | hk := k.eq_zero_or_pos
    · have : (0 : ℝ) ≤ n / d := by positivity
      norm_num
      linarith
    · have : ((2 * k : ℝ) - 1) * d < 2 * n := by
        have h := hlower hk
        rw [← Nat.cast_lt (α := ℝ)] at h
        push_cast [show 1 ≤ 2 * k by omega] at h
        exact h
      rw [lt_div_iff₀ hd']
      linarith
  refine (Int.ceil_eq_iff.mpr ?_).symm
  rw [Int.cast_natCast]
  constructor <;> linarith

/-! ### The darken entries (R213, R214) -/

theorem darkenDen_pos {p : DarkenParams} (h : 0 < p.den) : 0 < darkenDen p := by
  unfold darkenDen
  split <;> omega

/-- The fraction that stands for the amount `d(i)` is R213's formula in the value `num / den`. -/
theorem darkenNum_div_darkenDen (p : DarkenParams) (i : Nat) :
    (darkenNum p i : ℝ) / darkenDen p =
      if p.kind = .relative then i * ((p.num : ℝ) / p.den) / 100
      else if p.adaptive = false then (p.num : ℝ) / p.den
      else (p.num : ℝ) / p.den * i / 255 := by
  obtain ⟨kind, adaptive, num, den⟩ := p
  cases kind with
  | relative =>
    simp only [darkenNum, darkenDen, if_true]
    push_cast
    ring
  | subtractive =>
    cases adaptive with
    | false => simp [darkenNum, darkenDen]
    | true =>
      simp only [darkenNum, darkenDen, reduceCtorEq, if_false]
      push_cast
      ring

/-- Settles O53: the rounding is the ceiling of the amount less one half. -/
theorem darkenEntryIsTheRealFormula : Obligations.DarkenEntryIsTheRealFormula := by
  intro p i hden
  simp only [← darkenNum_div_darkenDen, ← roundTiesToZero_eq_ceil _ (darkenDen_pos hden), darkenEntry]
  omega

/-- Settles O54: in the two extreme cases the amount is whole, 0 or `i`. -/
theorem darkenProperties : Obligations.DarkenProperties := by
  refine ⟨fun p i => Nat.sub_le _ _, fun p i hkind hnum hden => ?_, fun p i hkind hadaptive hden hnum => ?_⟩
  · have hamount : darkenNum p i = 0 * darkenDen p := by simp [darkenNum, hkind, hnum]
    rw [darkenEntry, hamount, roundTiesToZero_mul 0 (darkenDen_pos hden), Nat.sub_zero]
  · have hamount : darkenNum p i = i * darkenDen p := by
      simp only [darkenNum, darkenDen, hkind, hadaptive, hnum]
      ring
    rw [darkenEntry, hamount, roundTiesToZero_mul i (darkenDen_pos hden), Nat.sub_self]

/-! ### The check of the darken parameters (R211) -/

/-- The sets of R211, as the host's check reads them (log entries 11 and 21). -/
def DarkenLegal (o : DarkenOptions) : Prop :=
  (o.typeCode = 0 ∨ o.typeCode = 1) ∧ (o.adaptiveCode = 0 ∨ o.adaptiveCode = 1) ∧ 0 < o.den ∧
    0 ≤ o.num ∧ o.num ≤ 255 * (o.den : Int)

/-- `p` says what the codes and the amount of `o` say. -/
def DarkenMeans (o : DarkenOptions) (p : DarkenParams) : Prop :=
  (p.kind = .relative ↔ o.typeCode = 0) ∧ (p.adaptive = true ↔ o.adaptiveCode = 1) ∧ (p.num : Int) = o.num ∧
    p.den = o.den

theorem darkenTypeOfCode_eq_some {c : Int} {kind : DarkenType} :
    darkenTypeOfCode c = some kind ↔ (c = 0 ∨ c = 1) ∧ (kind = .relative ↔ c = 0) := by
  unfold darkenTypeOfCode
  split_ifs with h0 h1
  · cases kind <;> simp [h0]
  · cases kind <;> simp [h1]
  · simp [h0, h1]

theorem darkenAdaptiveOfCode_eq_some {c : Int} {adaptive : Bool} :
    darkenAdaptiveOfCode c = some adaptive ↔ (c = 0 ∨ c = 1) ∧ (adaptive = true ↔ c = 1) := by
  unfold darkenAdaptiveOfCode
  split_ifs with h0 h1
  · cases adaptive <;> simp [h0]
  · cases adaptive <;> simp [h1]
  · simp [h0, h1]

/-- The check passes where both codes have a meaning and the value is in its range (R211). -/
theorem darkenCheck_eq_some_iff_codes {o : DarkenOptions} {p : DarkenParams} :
    darkenCheck o = some p ↔ (0 < o.den ∧ 0 ≤ o.num ∧ o.num ≤ 255 * (o.den : Int)) ∧
      darkenTypeOfCode o.typeCode = some p.kind ∧ darkenAdaptiveOfCode o.adaptiveCode = some p.adaptive ∧
      o.num.toNat = p.num ∧ o.den = p.den := by
  obtain ⟨kind, adaptive, num, den⟩ := p
  unfold darkenCheck
  split
  next k a hk ha => simp [hk, ha]
  next hnone => exact ⟨nofun, fun ⟨_, hk, ha, _⟩ => (hnone _ _ hk ha).elim⟩

theorem darkenCheck_eq_some {o : DarkenOptions} {p : DarkenParams} :
    darkenCheck o = some p ↔ DarkenLegal o ∧ DarkenMeans o p := by
  rw [darkenCheck_eq_some_iff_codes, darkenTypeOfCode_eq_some, darkenAdaptiveOfCode_eq_some]
  constructor
  · rintro ⟨⟨hd, h0, h255⟩, ⟨ht, hkind⟩, ⟨ha, hadaptive⟩, hnum, hden⟩
    exact ⟨⟨ht, ha, hd, h0, h255⟩, hkind, hadaptive, by omega, hden.symm⟩
  · rintro ⟨⟨ht, ha, hd, h0, h255⟩, hkind, hadaptive, hnum, hden⟩
    exact ⟨⟨hd, h0, h255⟩, ⟨ht, hkind⟩, ⟨ha, hadaptive⟩, by omega, hden.symm⟩

/-- Legal parameters pass, as the parameters that their codes name. -/
theorem exists_darkenCheck {o : DarkenOptions} (h : DarkenLegal o) : ∃ p, darkenCheck o = some p := by
  obtain ⟨-, -, -, h0, -⟩ := id h
  refine ⟨⟨if o.typeCode = 0 then .relative else .subtractive, o.adaptiveCode = 1, o.num.toNat, o.den⟩,
    darkenCheck_eq_some.mpr ⟨h, ?_, decide_eq_true_iff, Int.toNat_of_nonneg h0, rfl⟩⟩
  split_ifs with hcode <;> simp [hcode]

/-- Settles O52: the table and the setup are there exactly where the check passes. -/
theorem darkenChecksItsParameters : Obligations.DarkenChecksItsParameters := by
  intro o f alignLog2
  refine ⟨fun hillegal => ?_, fun hlegal => ?_⟩
  · have hnone : darkenCheck o = none :=
      Option.eq_none_iff_forall_ne_some.mpr fun p hp => hillegal (darkenCheck_eq_some.mp hp).1
    simp [darkenTable, darkenSetup, hnone]
  · obtain ⟨p, hp⟩ := exists_darkenCheck hlegal
    obtain ⟨-, hkind, hadaptive, hnum, hden⟩ := darkenCheck_eq_some.mp hp
    have htable : darkenTable o = some ((List.range 256).map (darkenEntry p)) := by rw [darkenTable, hp]; rfl
    exact ⟨p, _, hp, htable, hkind, hadaptive, hnum, hden, by simp, fun i hi => by simp [hi], by
      rw [darkenSetup, htable]; rfl⟩

/-! ### The luminance samples (R215) -/

theorem mem_sampleCoords {n x : Nat} : x ∈ sampleCoords n ↔ x < n ∧ 20 ∣ x := by
  simp only [sampleCoords, List.mem_map, List.mem_range]
  constructor
  · rintro ⟨k, hk, rfl⟩
    omega
  · rintro ⟨hx, k, rfl⟩
    exact ⟨k, by omega, rfl⟩

@[simp] theorem length_sampleCoords (n : Nat) : (sampleCoords n).length = (n + 19) / 20 := by simp [sampleCoords]

/-- Settles O56: the samples are the pairs of a sampled column and a sampled row. -/
theorem samplesAreTheGridOfTwenty : Obligations.SamplesAreTheGridOfTwenty := by
  intro w h
  constructor
  · intro x y
    simp only [samplePoints, List.mem_flatMap, List.mem_map, Prod.mk.injEq, mem_sampleCoords]
    constructor
    · rintro ⟨y, ⟨hy, hy20⟩, x, ⟨hx, hx20⟩, rfl, rfl⟩
      exact ⟨hx, hy, hx20, hy20⟩
    · rintro ⟨hx, hy, hx20, hy20⟩
      exact ⟨y, ⟨hy, hy20⟩, x, ⟨hx, hx20⟩, rfl, rfl⟩
  · simp [samplePoints, List.length_flatMap, Nat.mul_comm]

/-- A frame has no sample exactly where it has no pixel: the count of samples is a product of two ceilings. -/
theorem frameSamples_eq_nil_iff (m : Memory) (f : Frame) : frameSamples m f = [] ↔ f.width = 0 ∨ f.height = 0 := by
  rw [frameSamples, List.map_eq_nil_iff, ← List.length_eq_zero_iff, (samplesAreTheGridOfTwenty _ _).2,
    Nat.mul_eq_zero]
  omega

/-! ### The mean brightness (R216) -/

/-- The only list that a function's graph relates to a list is its image. -/
theorem forall₂_graph_iff {α β : Type} (f : α → β) {l : List α} {u : List β} :
    List.Forall₂ (fun a b => b = f a) l u ↔ u = l.map f := by
  rw [eq_comm, ← List.forall₂_eq_eq_eq, List.forall₂_map_left_iff]
  simp only [eq_comm]

/-- `lum(R, G, B)` (R216). -/
noncomputable def lum (p : Rgb) : ℝ := Real.sqrt ((lumSquared1000 p : ℝ) / 1000)

theorem lum_black : lum ⟨0#8, 0#8, 0#8⟩ = 0 := by simp [lum, lumSquared1000]

theorem forall₂_isLum_iff {samples : List Rgb} {lums : List ℝ} :
    List.Forall₂ IsLum samples lums ↔ lums = samples.map lum :=
  forall₂_graph_iff lum

/-- There is a mean brightness exactly where there is a sample: the sum of the brightnesses by their number (R216). -/
theorem isAverage_iff {samples : List Rgb} {avg : ℝ} :
    IsAverage samples avg ↔ samples ≠ [] ∧ avg = (samples.map lum).sum / samples.length := by
  simp only [IsAverage, forall₂_isLum_iff, exists_eq_left]
  refine and_congr_right fun hne => ?_
  rw [eq_div_iff (by simpa using hne)]

/-! ### The gamma table (R217, R219) -/

/-- The gamma exponent of a mean brightness (R217). -/
noncomputable def gammaExponent (avg : ℝ) : ℝ := 0.072 * avg * 13.0 / 255.0 + 1.0

/-- The gamma entry of an index, for an exponent (R219). -/
noncomputable def gammaEntry (gamma : ℝ) (i : Nat) : Nat := ⌊255 * ((i : ℝ) / 255) ^ gamma + 1 / 2⌋₊

/-- The gamma table of a mean brightness (R219). -/
noncomputable def gammaTable (avg : ℝ) : List Nat :=
  (List.range Config.clutEntries).map (gammaEntry (gammaExponent avg))

theorem isGammaTable_iff {avg : ℝ} {t : List Nat} : IsGammaTable avg t ↔ t = gammaTable avg := by
  simp only [IsGammaTable, IsGammaExponent, exists_eq_left]
  exact forall₂_graph_iff (gammaEntry (gammaExponent avg))

theorem gammaTable_length (avg : ℝ) : (gammaTable avg).length = 256 := by simp [gammaTable, Config.clutEntries]

theorem gammaTable_getElem? {avg : ℝ} {i v : Nat} :
    (gammaTable avg)[i]? = some v ↔ i < 256 ∧ gammaEntry (gammaExponent avg) i = v := by
  simp [gammaTable, Config.clutEntries, List.getElem?_eq_some_iff]

theorem gammaExponent_pos {avg : ℝ} (h : 0 ≤ avg) : 0 < gammaExponent avg := by
  unfold gammaExponent
  positivity

/-- The exponent 1 leaves each index as it is. -/
theorem gammaEntry_one (i : Nat) : gammaEntry 1 i = i := by
  rw [gammaEntry, Real.rpow_one, mul_div_cancel₀ _ (by norm_num), Nat.floor_eq_iff (by positivity)]
  constructor <;> linarith

theorem gammaEntry_zero {gamma : ℝ} (h : gamma ≠ 0) : gammaEntry gamma 0 = 0 := by
  rw [gammaEntry, Nat.cast_zero, zero_div, Real.zero_rpow h, Nat.floor_eq_zero]
  norm_num

theorem gammaEntry_last (gamma : ℝ) : gammaEntry gamma 255 = 255 := by
  rw [gammaEntry, Nat.cast_ofNat, div_self (by norm_num), Real.one_rpow, Nat.floor_eq_iff (by norm_num)]
  norm_num

theorem gammaEntry_mono {gamma : ℝ} (h : 0 ≤ gamma) : Monotone (gammaEntry gamma) := by
  intro i j hij
  unfold gammaEntry
  gcongr

/-- The exponent of mean brightness 0 is 1, and so its table is the identity (R217, R219, R221). -/
theorem gammaTable_zero : gammaTable 0 = identityTable := by
  have hexponent : gammaExponent 0 = 1 := by norm_num [gammaExponent]
  rw [gammaTable, hexponent, identityTable, List.map_congr_left fun i _ => gammaEntry_one i, List.map_id']

/-- Settles O59: the entries are a non-decreasing function of the index, for a positive exponent. -/
theorem gammaTableNeverFalls : Obligations.GammaTableNeverFalls := by
  intro avg t havg ht
  obtain rfl := isGammaTable_iff.mp ht
  have hpos : 0 < gammaExponent avg := gammaExponent_pos havg
  refine ⟨gammaTable_length avg, gammaTable_getElem?.mpr ⟨by decide, gammaEntry_zero hpos.ne'⟩,
    gammaTable_getElem?.mpr ⟨by decide, gammaEntry_last _⟩, fun i j a b hij ha hb => ?_⟩
  obtain ⟨-, rfl⟩ := gammaTable_getElem?.mp ha
  obtain ⟨-, rfl⟩ := gammaTable_getElem?.mp hb
  exact gammaEntry_mono hpos.le hij

/-! ### The table of a frame (R218, R221) -/

theorem isFrameGammaTable_none {m : Memory} {f : Frame} : IsFrameGammaTable m f none ↔ frameSamples m f = [] := Iff.rfl

/-- A frame's table is that of the mean brightness of its samples, of which there must be one (R216, R218). -/
theorem isFrameGammaTable_some {m : Memory} {f : Frame} {t : List Nat} :
    IsFrameGammaTable m f (some t) ↔ frameSamples m f ≠ [] ∧
      t = gammaTable (((frameSamples m f).map lum).sum / (frameSamples m f).length) := by
  simp only [IsFrameGammaTable, isAverage_iff, isGammaTable_iff, and_assoc, exists_and_left, exists_eq_left]

/-- Settles O58: with samples there is one mean brightness, which has one table. -/
theorem gammaIsSkippedWithoutSamples : Obligations.GammaIsSkippedWithoutSamples := by
  intro m f
  refine ⟨frameSamples_eq_nil_iff m f, fun hempty table => ?_, fun hw hh => ?_⟩
  · have hnil : frameSamples m f = [] := (frameSamples_eq_nil_iff m f).mpr hempty
    cases table with
    | none => simp [isFrameGammaTable_none, hnil]
    | some t => simp [isFrameGammaTable_some, hnil]
  · have hne : frameSamples m f ≠ [] := by simp [frameSamples_eq_nil_iff, hw, hh]
    exact ⟨hne, _, isFrameGammaTable_some.mpr ⟨hne, rfl⟩, fun t' ht' => (isFrameGammaTable_some.mp ht').2⟩

theorem sum_lum_of_black {samples : List Rgb} (h : ∀ p ∈ samples, p = ⟨0#8, 0#8, 0#8⟩) : (samples.map lum).sum = 0 :=
  List.sum_eq_zero fun v hv => by
    obtain ⟨p, hp, rfl⟩ := List.mem_map.mp hv
    rw [h p hp, lum_black]

/-- Settles O57: black samples have brightness 0, and so has their mean, whose table is the identity. -/
theorem gammaOfBlackIsIdentity : Obligations.GammaOfBlackIsIdentity := by
  refine ⟨fun samples hne hblack avg => ?_, fun t => ?_, fun m f hne hblack table => ?_⟩
  · simp [isAverage_iff, hne, sum_lum_of_black hblack]
  · rw [isGammaTable_iff, gammaTable_zero]
  · cases table with
    | none => simp [isFrameGammaTable_none, hne]
    | some t => simp [isFrameGammaTable_some, hne, sum_lum_of_black hblack, gammaTable_zero]

end Sys2Proof.Machine
end

section
/-! SUPPORT. Errors, the interrupt line, and what a host transaction is to a running job (60_exceptions.md R233 to R246;
70_reset_and_hazards.md R276). -/

namespace Sys2Proof.Machine

open Sys2Proof.Safety

/-! ### The host's part of the state

What the host sees and changes while a job runs, and the engine does not read (R245). -/

/-- The state with the host's part of another: ERR, the interrupt registers and the reply. -/
def State.withHostPart (s h : State) : State :=
  { s with err := h.err, done := h.done, doneIe := h.doneIe, errIe := h.errIe, reply := h.reply }

theorem sameJob_withHostPart (s h : State) : SameJob s (s.withHostPart h) := by simp [SameJob, State.withHostPart]

/-- An engine write leaves the host's part alone, and does not depend on it. -/
theorem engineWrite_withHostPart {s t : State} {a : Nat} {v : Byte} (ht : engineWrite s a v = some t) (h : State) :
    engineWrite (s.withHostPart h) a v = some (t.withHostPart h) := by
  obtain ⟨hadm, rfl⟩ := engineWrite_some.mp ht
  exact engineWrite_some.mpr ⟨hadm, rfl⟩

theorem packPixel_withHostPart {s t : State} {d : Nat} {q : Rgb} (ht : packPixel s d q = some t) (h : State) :
    packPixel (s.withHostPart h) d q = some (t.withHostPart h) := by
  simp only [packPixel, Option.bind_eq_some_iff] at ht ⊢
  obtain ⟨s1, h1, s2, h2, h3⟩ := ht
  exact ⟨_, engineWrite_withHostPart h1 h, _, engineWrite_withHostPart h2 h, engineWrite_withHostPart h3 h⟩

theorem writeFourth_withHostPart {s t : State} {d : Nat} {a : Option Byte} (ht : writeFourth s d a = some t)
    (h : State) : writeFourth (s.withHostPart h) d a = some (t.withHostPart h) := by
  cases a with
  | none => cases ht; rfl
  | some v => exact engineWrite_withHostPart ht h

/-- A pixel step that answers `t`, part by part: each of its reads, its lookup and its writes has a result (R191). -/
theorem pixelStep_eq_next {s t : State} :
    pixelStep s = .next t ↔ ∃ p a q u, selectPixel s (srcPx s s.curX.toNat s.curY.toNat) = some p ∧
      readFourth s (srcPx s s.curX.toNat s.curY.toNat) = some a ∧ remap s p = some q ∧
      packPixel s (dstPx s s.curX.toNat s.curY.toNat) q = some u ∧
      writeFourth u (dstPx s s.curX.toNat s.curY.toNat) a = some t := by
  constructor
  · intro ht
    simp only [pixelStep] at ht
    split at ht
    · rename_i p a hp ha
      split at ht
      · rename_i q hq
        split at ht
        · rename_i t' hw
          cases ht
          obtain ⟨u, hu, hw⟩ := Option.bind_eq_some_iff.mp hw
          exact ⟨p, a, q, u, hp, ha, hq, hu, hw⟩
        · cases ht
      · cases ht
    · cases ht
  · rintro ⟨p, a, q, u, hp, ha, hq, hu, hw⟩
    simp only [pixelStep, hp, ha, hq, hu, hw, Option.bind_some]

/-- A pixel step reads none of the host's part, and leaves it alone (R191). -/
theorem pixelStep_withHostPart {s t : State} (ht : pixelStep s = .next t) (h : State) :
    pixelStep (s.withHostPart h) = .next (t.withHostPart h) := by
  obtain ⟨p, a, q, u, hp, ha, hq, hu, hw⟩ := pixelStep_eq_next.mp ht
  exact pixelStep_eq_next.mpr ⟨p, a, q, u.withHostPart h, hp, ha, hq, packPixel_withHostPart hu h,
    writeFourth_withHostPart hw h⟩

/-- The cursor's advance sets DONE at the end of the job, and else leaves the host's part alone (R176, R177). -/
theorem advanceCursor_withHostPart (s h : State) :
    ∃ h', advanceCursor (s.withHostPart h) = (advanceCursor s).withHostPart h' := by
  by_cases hx : s.curX.toNat + 1 < s.width.toNat
  · exact ⟨h, by simp [advanceCursor, State.withHostPart, hx]⟩
  · by_cases hy : s.curY.toNat + 1 < s.height.toNat
    · exact ⟨h, by simp [advanceCursor, State.withHostPart, hx, hy]⟩
    · exact ⟨completeJob h, by simp [advanceCursor, completeJob, State.withHostPart, hx, hy]⟩

/-- The engine's step goes the same way whatever the host's part is (R245). -/
theorem engineStep_withHostPart {s t : State} (ht : engineStep s = .next t) (h : State) :
    ∃ h', engineStep (s.withHostPart h) = .next (t.withHostPart h') := by
  obtain ⟨u, hu, rfl⟩ := engineStep_next ht
  obtain ⟨h', he⟩ := advanceCursor_withHostPart u h
  exact ⟨h', by rw [engineStep, pixelStep_withHostPart hu h, ← he]⟩

/-! ### Host transactions and a running job -/

/-- Settles O14: while BUSY = 1 every effect that a transaction can have is outside the job. -/
theorem transactionsLeaveARunningJobAlone : Obligations.TransactionsLeaveARunningJobAlone := by
  intro i s t hb ht
  have heffect := exec_effect i s t ht
  have hframe := heffect.frame_of_busy hb
  refine ⟨(heffect.of_busy hb).1, ?_⟩
  rw [hframe]
  exact ⟨rfl, rfl, rfl, rfl⟩

/-- Settles O47: a transaction during a job changes the host's part only, which the engine's step does not read. -/
theorem hostTransactionsDoNotDisturbEngineSteps : Obligations.HostTransactionsDoNotDisturbEngineSteps := by
  intro i s u t hb hu ht
  have hpart : u = s.withHostPart u := (exec_effect i s u hu).frame_of_busy hb
  rw [engineTurn_of_busy hb] at ht
  obtain ⟨h', hv⟩ := engineStep_withHostPart ht u
  refine ⟨t.withHostPart h', ?_, sameJob_withHostPart t h', rfl, rfl⟩
  rw [hpart, engineTurn_of_busy (s := s.withHostPart u) hb, hv]

/-! ### Precise errors (R233, R234) -/

/-- Settles O12: both cases of `recordedError`. -/
theorem firstErrorKeptLaterSetOvf : Obligations.FirstErrorKeptLaterSetOvf := by
  intro s c n
  have hraise : raiseError s c n = { s with err := recordedError s c n } := by rw [← record_eq]; rfl
  refine ⟨fun h => ?_, fun h => ?_⟩
  · rw [hraise, recordedError, if_pos h, if_pos h, if_pos h]
  · rw [hraise, recordedError, if_neg h, if_neg h, if_neg h]

/-- Of a transaction with the result `r` in the state `s`, and `cleared` there with ERR clear: an error that it leaves
in the clear ERR it records in `s` too, and it changes nothing else but the reply, which only a read has. -/
def RecordsPrecisely (write : Bool) (s : State) (cleared r : Result) : Prop :=
  ∀ u, cleared = .next u → u.err.code ≠ .noError →
    r = .next { s with
      err := recordedError s u.err.code u.err.info, reply := if write then .nothing else .word 0#32 }

theorem RecordsPrecisely.noError {write : Bool} {s u : State} {r : Result} (h : u.err.code = .noError) :
    RecordsPrecisely write s (.next u) r := by
  rintro _ ⟨⟩ hne
  exact absurd h hne

theorem RecordsPrecisely.fault {write : Bool} {s : State} {e : Fault} {r : Result} :
    RecordsPrecisely write s (.fault e) r := fun _ h => by cases h

theorem RecordsPrecisely.refused {write : Bool} {s : State} {e : Refusal} {r : Result} :
    RecordsPrecisely write s (.refused e) r := fun _ h => by cases h

theorem RecordsPrecisely.refuseWrite {write : Bool} (hw : write = true) (s : State) (c : ErrCode) (n : BitVec 16) :
    RecordsPrecisely write s (refuseWrite (clearError s) c n) (refuseWrite s c n) := by
  subst hw
  simp only [refuseWrite_eq]
  rintro _ ⟨⟩ -
  rfl

theorem RecordsPrecisely.refuseRead {write : Bool} (hw : write = false) (s : State) (c : ErrCode) (n : BitVec 16) :
    RecordsPrecisely write s (refuseRead (clearError s) c n) (refuseRead s c n) := by
  subst hw
  simp only [refuseRead_eq]
  rintro _ ⟨⟩ -
  rfl

/-- The guard's own error is recorded precisely, and behind it stands the transaction's result (R100). -/
theorem RecordsPrecisely.guardWrite {write : Bool} (hw : write = true) {s : State} {off : Offset} {cleared r : Result}
    (h : RecordsPrecisely write s cleared r) :
    RecordsPrecisely write s (guardWrite (clearError s) off cleared) (guardWrite s off r) := by
  unfold Machine.guardWrite
  rw [clearError_busy]
  split
  · exact .refuseWrite hw s _ _
  · exact h

theorem RecordsPrecisely.guardRead {write : Bool} (hw : write = false) {s : State} {off : Offset} {cleared r : Result}
    (h : RecordsPrecisely write s cleared r) :
    RecordsPrecisely write s (guardRead (clearError s) off cleared) (guardRead s off r) := by
  unfold Machine.guardRead
  rw [clearError_busy]
  split
  · exact .refuseRead hw s _ _
  · exact h

theorem execRdClutData_precise (s : State) :
    RecordsPrecisely false s (execRdClutData (clearError s)) (execRdClutData s) := by
  refine .guardRead rfl ?_
  rw [clearError_clut, clearError_clutIndex]
  split
  · exact .noError rfl
  · exact .fault

theorem execRdCubeData_precise (s : State) :
    RecordsPrecisely false s (execRdCubeData (clearError s)) (execRdCubeData s) := by
  refine .guardRead rfl ?_
  rw [clearError_cube, clearError_cubeIndex]
  split
  · exact .noError rfl
  · exact .fault

theorem execWrIntStatus_precise (d : Word) (s : State) :
    RecordsPrecisely true s (execWrIntStatus d (clearError s)) (execWrIntStatus d s) := by
  rw [execWrIntStatus_eq]
  exact .noError rfl

theorem execWrCfg_precise (d : Word) (s : State) :
    RecordsPrecisely true s (execWrCfg d (clearError s)) (execWrCfg d s) := by
  refine .guardWrite rfl ?_
  cases formatOfCode (operandFmt d) with
  | none => exact .refuseWrite rfl s _ _
  | some f =>
    cases modeOfCode (operandMode d) with
    | none => exact .refuseWrite rfl s _ _
    | some m => exact .noError rfl

/-- The checks of START do not read ERR, so they refuse it for the same reason (R165). -/
theorem execCmdStart_precise (s : State) :
    RecordsPrecisely true s (exec .cmdStart (clearError s)) (exec .cmdStart s) := by
  intro u hu hne
  rw [exec_cmdStart, startRefusal_of_raises ⟨u, hu, rfl, rfl, hne⟩]
  rfl

theorem RecordsPrecisely.completionRead {write : Bool} {s : State} {v : Word} {r : Result} :
    RecordsPrecisely write s (Machine.endRead (seeCompletion (clearError s)) v) r :=
  .noError (by simp)

/-- Every transaction records its errors precisely (R234). -/
theorem exec_precise (i : Instr) (s : State) :
    RecordsPrecisely (htwWe (encode i)) s (exec i (clearError s)) (exec i s) := by
  have hwrite : ∀ off d, htwWe (encodeWrite off d) = true := fun _ _ => htwWe_packHtw ..
  have hread : ∀ off, htwWe (encodeRead off) = false := fun _ => htwWe_packHtw ..
  cases i
  case rsvRefusedB46 | rsvRefusedB45 | rsvRefusedB44 => exact .refused
  case rdId | rdCmd | rdIntEnable | rdCfg | rdWidth | rdHeight | rdSrcBase | rdSrcStride | rdDstBase | rdDstStride
    | rdClutIndex | rdCubeIndex | rdLayout | rdUnmapped => exact .noError rfl
  case rdStatus | rdErr | rdIntStatus => exact .completionRead
  case rdClutData => rw [encode, hread]; exact execRdClutData_precise s
  case rdCubeData => rw [encode, hread]; exact execRdCubeData_precise s
  case wrId | wrStatus | wrErr | wrLayout | wrUnmapped | cmdReserved => exact .refuseWrite (hwrite ..) s _ _
  case wrIntStatus d => rw [encode, hwrite]; exact execWrIntStatus_precise d s
  case wrIntEnable => exact .noError rfl
  case wrCfg d => rw [encode, hwrite]; exact execWrCfg_precise d s
  case wrWidth | wrHeight | wrSrcBase | wrSrcStride | wrDstBase | wrDstStride | wrClutIndex | wrClutData | wrCubeIndex
    | wrCubeData | cmdCubeInvalidate | cmdCubeCommit => exact .guardWrite (hwrite ..) (.noError rfl)
  case cmdStart => rw [encode, hwrite]; exact execCmdStart_precise s
  case cmdNop | cmdClearErr => exact .noError rfl

/-- Settles O13: the next state is the one that `RecordsPrecisely` names, and its reply is the write's or the read's. -/
theorem errorsArePrecise : Obligations.ErrorsArePrecise := by
  intro i s u hu hne
  exact ⟨_, exec_precise i s u hu hne, rfl, fun hw => if_pos hw, fun hw => if_neg (Bool.eq_false_iff.mp hw)⟩

/-! ### The interrupt line -/

theorem irq_iff {s : State} :
    irq s = true ↔ (s.done = true ∧ s.doneIe = true) ∨ (s.err.code ≠ .noError ∧ s.errIe = true) := by
  rw [irq, Bool.or_eq_true, doneDrives_iff, errDrives_iff]

/-- Settles O15: RD STATUS leaves the sources alone, and STATUS.IRQ is bit 4 of its word. -/
theorem irqIsTheOrOfEnabledSources : Obligations.IrqIsTheOrOfEnabledSources := fun s =>
  ⟨irq_iff, _, statusWord s, endRead_seeCompletion s _, rfl, statusWord_getLsbD s 4, rfl⟩

end Sys2Proof.Machine
end

section
/-! SUPPORT. Reset from any state (70_reset_and_hazards.md R260 to R264). -/

namespace Sys2Proof.Machine

/-! ### The step that takes a reset -/

@[simp] theorem doneDrives_resetEvent (s : State) : doneDrives (resetEvent s) = false := rfl

/-- Neither DONE nor ERR drives irq after a reset (R237, R262). -/
@[simp] theorem irq_resetEvent (s : State) : irq (resetEvent s) = false := rfl

/-- DONE does not drive irq after a reset, so the step records no rise of the line. -/
theorem step_reset {s : State} {rest : List Event} (h : s.inbox = .reset :: rest) :
    step s = .next (resetEvent { s with inbox := rest }) := by
  rw [step_event h, runEvent, settle_next, settleIrq_of_not (by simp)]

/-- Settles O9: the step is `resetEvent`, whose fields are those of the reset state but for pixel memory and what is to
come; the LUTs and the INPLACE latch are as `resetStateIsTheTable` has them. -/
theorem resetFromAnyState : Obligations.ResetFromAnyState := by
  intro s rest h
  obtain ⟨-, hluts, -, hinplace⟩ := resetStateIsTheTable
  have hmem : ∀ a, (resetEvent { s with inbox := rest }).mem.read a = s.mem.read a := fun a => by rw [resetEvent_mem]
  have hcfg : cfgWord State.reset.cfg = 0#32 := by decide
  have hlayout : layoutWord State.reset.cfg.fmt = 0x324#32 := by decide
  exact ⟨_, step_reset h, resetEvent_inbox _, hmem, rfl, rfl, rfl, rfl, rfl, rfl, irq_resetEvent _, hcfg, hlayout,
    rfl, rfl, rfl, rfl, rfl, rfl, rfl, rfl, hinplace, hluts⟩

end Sys2Proof.Machine
end
